-- ==== Sys2Proof/Word.lean ====
section
/-! DEFINITION. The word types of CORE: 32-bit words (R6, R130), bytes (R7), and byte offsets in the 64-byte register window (R50). -/

namespace Sys2Proof

/-- A 32-bit unsigned word; bit 0 is the least significant (R6). -/
abbrev Word := BitVec 32

/-- One byte of a message, a digest or the message buffer (R7). -/
abbrev Byte := BitVec 8

/-- A byte offset in CORE's register window, 0x00..0x3F (R50). -/
abbrev Offset := BitVec 6

end Sys2Proof
end

