-- ==== Sys2Proof/Config.lean ====
section
/-! DEFINITION. What the spec leaves open as a parameter or a free value. A constant without a body is a value that no proof can see. -/

namespace Sys2Proof

/-- `any32` of R52: the unspecified value of the n-th read of LEN_LO, LEN_HI or DIGESTi made while BUSY = 1.
A FREE VALUE (log 4): "an unspecified 32-bit value the model draws freshly at each such read, under no law".
DESIGN CHOICE, unsafe (logs 4, 10): n is the count of one instance's own draws, and one constant serves every instance of a system, so the n-th such reads of two instances give one and the same value; the spec relates them by no law. -/
opaque Config.any32 : Nat → Word

/-- How many 64-byte slots of the platform's address space lie free before the window of instance k, after that of instance k - 1 (R50, R224, D3: OPEN; log 7). -/
opaque Config.windowGap : Nat → Nat

/-- The 64-byte slot that holds the window of instance k: "each has its own window" (R224). The instances are numbered in the order of their windows (log 7). -/
def Config.windowIndex : Nat → Nat
  | 0 => Config.windowGap 0
  | k + 1 => Config.windowIndex k + 1 + Config.windowGap (k + 1)

/-- `P_BASE` of instance k, the byte address of its window, "a multiple of 64" (R50). -/
def Config.pBase (k : Nat) : Nat := 64 * Config.windowIndex k

/-- `P_BUSERR`: "whether the platform turns CORE's access-error response into a host trap" (R5, R209, U12: OPEN; log 8). -/
opaque Config.busErrorTraps : Bool

end Sys2Proof
end

