-- ==== Sys2Proof/Machine/Bits.lean ====
section
/-! DEFINITION. The notation of 00_scope.md: big-endian byte order (R7, R53), right rotation and logical right shift (R8, R9). -/

namespace Sys2Proof.Machine

/-- `BE32(b0,b1,b2,b3)`: four bytes to a word, first byte most significant (R7). -/
def be32 (b0 b1 b2 b3 : Byte) : Word := b0 ++ b1 ++ b2 ++ b3

/-- Byte k of a word, most significant first: `w[31-8k : 24-8k]` for k = 0..3 (R7, R84). -/
def wordByte (w : Word) (k : Nat) : Byte := (w >>> (24 - 8 * k)).setWidth 8

/-- `BYTES32(w)` (R7). -/
def bytes32 (w : Word) : List Byte := [wordByte w 0, wordByte w 1, wordByte w 2, wordByte w 3]

/-- Byte k of a 64-bit value, most significant first: `v[63-8k : 56-8k]` for k = 0..7 (R108). -/
def longByte (v : BitVec 64) (k : Nat) : Byte := (v >>> (56 - 8 * k)).setWidth 8

/-- `BYTES64(v)`, the inverse of BE64 (R7). -/
def bytes64 (v : BitVec 64) : List Byte := (List.range 8).map (longByte v)

/-- The bytes of eight words, most significant byte first: the digest's byte order (R26, R40). -/
def bytesOfWords (d : Vector Word 8) : List Byte := d.toList.flatMap bytes32

/-- `ROTR(x, n) = (x >> n) | (x << (32 - n))` for 0 < n < 32 (R9). -/
def rotr (x : Word) (n : Nat) : Word := (x >>> n) ||| (x <<< (32 - n))

/-- `SHR(x, n) = x >> n` (R9). -/
def shr (x : Word) (n : Nat) : Word := x >>> n

end Sys2Proof.Machine
end

