-- ==== Sys2Proof/Syntax.lean ====
section
/-! DEFINITION. What can be written down: the command words (R81, R87), the host's register accesses (R51) and the host's assembler statements (R89, R90). -/

namespace Sys2Proof

/-- The commands of CORE, one constructor per row of spec/opcode_table.json (R87). No command word has an operand field that a row leaves open. -/
inductive Instr where
  | nop | init
  | update0 | update1 | update2 | update3 | update4
  | final | stretch | zeroize | clrerr
  deriving DecidableEq, Repr

/-- A command word cut into the three fields of the one command format (R81). -/
structure RawCommand where
  rsvd : BitVec 25
  nb   : BitVec 3
  op   : BitVec 4
  deriving DecidableEq, Repr

/-- Why a word is no command (R86): the decoder rejects by name. Every one is rejected with ILLEGAL_CMD (R202). -/
inductive DecodeError where
  /-- a nonzero RSVD bit -/
  | reservedBits
  /-- OP 0x7..0xF -/
  | reservedOpcode
  /-- UPDATE with NB 5..7, or another OP with NB ≠ 0 -/
  | byteCount
  deriving DecidableEq, Repr

/-- The width in bytes of a register access (R51: "1, 2 or 4"). -/
inductive AccessSize where
  | one | two | four
  deriving DecidableEq, Repr

/-- One move of the host (R20, R51): a register access, the polling loop WAIT or the requirement CHECKOK of R90, or the check of R168.
The offset is the one CORE decodes (R50). -/
inductive HostOp where
  /-- `RegRead(off, size)` -/
  | read (off : Offset) (size : AccessSize)
  /-- `RegWrite(off, size, v)` -/
  | write (off : Offset) (size : AccessSize) (v : Word)
  /-- `WAIT`: read STATUS, again and again while bit 0 is 1 -/
  | wait
  /-- `CHECKOK`: read STATUS; the program requires bit 1 to be 0 -/
  | checkok
  /-- read STATUS; the `guarded` moves that follow are made "when STATUS shows BUSY = 0, PHASE = DONE and ERR = 0" (R168, log 22) -/
  | checkdone (guarded : Nat)
  deriving DecidableEq, Repr

/-- The register names of R34. -/
inductive Reg where
  | cmd | status | dataIn | iter | lenLo | lenHi
  | digest (i : Fin 8)
  deriving DecidableEq, Repr

/-- A statement of a host program (R89), a pseudo-instruction (R90) or the end of R168's sequence. The name a read binds is a label and is left out. -/
inductive Stmt where
  | wr (r : Reg) (v : Word)
  | rd (r : Reg)
  | wrb (r : Reg) (v : Word)
  | rdb (r : Reg)
  | command (i : Instr)
  | wait
  | push (nb : Fin 5) (w : Word)
  | hashbegin
  | hashend
  | stretchn (n : Word)
  | readdig
  | checkok
  /-- READDIG, made only when STATUS shows BUSY = 0, PHASE = DONE and ERR = 0: the end of the host sequence of R168 -/
  | readdigWhenDone
  deriving DecidableEq, Repr

end Sys2Proof
end

