-- ==== Sys2Proof/Machine/State.lean ====
section
/-! DEFINITION. Everything the spec gives CORE as state (10_state.md), the outside world the step reads (the schedule, the host's accesses) and records (the bus responses), the reasons a step can stop, and the state after reset (R230). -/

namespace Sys2Proof.Machine

/-- `PHASE` (R27): IDLE 0, ACTIVE 1, DONE 2; "3 (none) unreachable: no rule writes 3" (log 14). -/
inductive Phase where
  | idle | active | done
  deriving DecidableEq, Repr

/-- `CAUSE` (R28): the codes 0..6 of R201, in order; 7..15 are "never written" (log 14). -/
inductive Cause where
  | none | illegalCmd | sequence | negIter | busyWrite | lenOverflow | badAccess
  deriving DecidableEq, Repr

/-- `PEND` when it is not empty (R29): the accepted command (its opcode and byte count, log 13) and the snapshots of DATA_IN and ITER taken at acceptance. -/
structure Pending where
  cmd  : Instr
  data : Word
  iter : Word
  deriving DecidableEq, Repr

/-- The transient state of one engine step (R32). -/
structure Transients where
  w   : Vector Word 64
  a   : Word
  b   : Word
  c   : Word
  d   : Word
  e   : Word
  f   : Word
  g   : Word
  h   : Word
  t   : BitVec 6
  t1  : Word
  t2  : Word
  rem : BitVec 31
  deriving DecidableEq, Repr

/-- Every transient 0: its reset value (R230) and what an engine step leaves (R32). -/
def Transients.zero : Transients :=
  { w := Vector.replicate 64 0, a := 0, b := 0, c := 0, d := 0, e := 0, f := 0, g := 0, h := 0,
    t := 0, t1 := 0, t2 := 0, rem := 0 }

/-- Who makes the next move: the host or the engine (R20), or the platform, which asserts reset (R230). -/
inductive Agent where
  | host | engine | reset
  deriving DecidableEq, Repr

/-- What the bus gives the host for a completed access: the value of a read (none for a write), and whether CORE gave its error response (R55, R209). -/
structure BusResponse where
  value : Option Word
  error : Bool
  deriving DecidableEq, Repr

/-- The state of the machine. The first eleven fields and `tr` are CORE's (10_state.md); the last six are the model's own. -/
structure State where
  /-- `H[0..7]`, the hash state (R21) -/
  h      : Vector Word 8
  /-- `BUF[0..63]`, the message buffer (R23) -/
  buf    : Vector Byte 64
  /-- `CUR`, the cursor, 0..64 in 7 bits (R24) -/
  cur    : BitVec 7
  /-- `LEN`, the bit-length counter (R25) -/
  len    : BitVec 64
  /-- `DIG[0..7]`, the digest latch (R26) -/
  dig    : Vector Word 8
  /-- `PHASE` (R27) -/
  phase  : Phase
  /-- `ERR` (R28) -/
  err    : Bool
  /-- `CAUSE` (R28) -/
  cause  : Cause
  /-- `PEND` (R29) -/
  pend   : Option Pending
  /-- `DATA_IN` (R30) -/
  dataIn : Word
  /-- `ITER` (R31) -/
  iter   : Word
  /-- the transients (R32, log 5) -/
  tr     : Transients
  /-- the model's own: who moves next, and after that (R60, log 1) -/
  sched  : List Agent
  /-- the model's own: the host's moves to come, in program order (R60, log 2) -/
  prog   : List HostOp
  /-- the model's own: what the host does from its next bus-error traps on, the next trap first (R209, log 8) -/
  handlers : List (List HostOp)
  /-- the model's own: the bus responses so far, newest first (R241, log 11) -/
  log    : List BusResponse
  /-- the model's own: how many unspecified values have been drawn (R52, log 4) -/
  draws  : Nat
  /-- the model's own: a requirement of CHECKOK was not met (R90, log 12) -/
  unmet  : Bool
  deriving DecidableEq, Repr

/-- Why the machine stops with a fault. CORE itself never halts on an error (R200); errors are next states. -/
inductive Fault where
  /-- Raised by the engine step of UPDATE 1..4, FINAL and STRETCH in a state with CUR ≥ 64, where BUF[CUR] is no byte of BUF. R24 rules such states out between engine steps, so no run reaches it. Safe (log 6). -/
  | cursorOutsideBuffer
  deriving DecidableEq, Repr

/-- Why an instruction has no meaning. -/
inductive Refusal where
  /-- An instruction of the table without a meaning, by its mnemonic. Every instruction has one, so nothing raises it. Safe. -/
  | notModelled (mnemonic : String)
  deriving DecidableEq, Repr

/-- The machine right after reset: every element of CORE is 0, PHASE is IDLE, PEND is empty (R230); nothing is scheduled and the host has nothing to do (log 2). -/
def State.reset : State :=
  { h := Vector.replicate 8 0
    buf := Vector.replicate 64 0
    cur := 0
    len := 0
    dig := Vector.replicate 8 0
    phase := .idle
    err := false
    cause := .none
    pend := none
    dataIn := 0
    iter := 0
    tr := .zero
    sched := []
    prog := []
    handlers := []
    log := []
    draws := 0
    unmet := false }

end Sys2Proof.Machine
end

