-- ==== Sys2Proof/Machine/Compression.lean ====
section
/-! DEFINITION. The compression function and the message scheduler (41_compression.md R130 to R142), and the constants IV (R22) and K (R135). -/

namespace Sys2Proof.Machine

/-- `IV[0..7]`, the initial hash value (R22). -/
def initialHash : Vector Word 8 :=
  #v[0x6A09E667, 0xBB67AE85, 0x3C6EF372, 0xA54FF53A, 0x510E527F, 0x9B05688C, 0x1F83D9AB, 0x5BE0CD19]

/-- `Ch(x, y, z)`, choose (R131). -/
def ch (x y z : Word) : Word := (x &&& y) ^^^ (~~~x &&& z)

/-- `Maj(x, y, z)`, majority (R132). -/
def maj (x y z : Word) : Word := (x &&& y) ^^^ (x &&& z) ^^^ (y &&& z)

/-- `Sigma0(x)` (R133). -/
def bigSigma0 (x : Word) : Word := rotr x 2 ^^^ rotr x 13 ^^^ rotr x 22

/-- `Sigma1(x)` (R134). -/
def bigSigma1 (x : Word) : Word := rotr x 6 ^^^ rotr x 11 ^^^ rotr x 25

/-- `Gamma0(x)` (R136). -/
def gamma0 (x : Word) : Word := rotr x 7 ^^^ rotr x 18 ^^^ shr x 3

/-- `Gamma1(x)` (R137). -/
def gamma1 (x : Word) : Word := rotr x 17 ^^^ rotr x 19 ^^^ shr x 10

/-- `K[0..63]`, the round constants, eight per row (R135). -/
def roundConstants : List Word :=
  [0x428A2F98, 0x71374491, 0xB5C0FBCF, 0xE9B5DBA5, 0x3956C25B, 0x59F111F1, 0x923F82A4, 0xAB1C5ED5] ++
  [0xD807AA98, 0x12835B01, 0x243185BE, 0x550C7DC3, 0x72BE5D74, 0x80DEB1FE, 0x9BDC06A7, 0xC19BF174] ++
  [0xE49B69C1, 0xEFBE4786, 0x0FC19DC6, 0x240CA1CC, 0x2DE92C6F, 0x4A7484AA, 0x5CB0A9DC, 0x76F988DA] ++
  [0x983E5152, 0xA831C66D, 0xB00327C8, 0xBF597FC7, 0xC6E00BF3, 0xD5A79147, 0x06CA6351, 0x14292967] ++
  [0x27B70A85, 0x2E1B2138, 0x4D2C6DFC, 0x53380D13, 0x650A7354, 0x766A0ABB, 0x81C2C92E, 0x92722C85] ++
  [0xA2BFE8A1, 0xA81A664B, 0xC24B8B70, 0xC76C51A3, 0xD192E819, 0xD6990624, 0xF40E3585, 0x106AA070] ++
  [0x19A4C116, 0x1E376C08, 0x2748774C, 0x34B0BCB5, 0x391C0CB3, 0x4ED8AA4A, 0x5B9CCA4F, 0x682E6FF3] ++
  [0x748F82EE, 0x78A5636F, 0x84C87814, 0x8CC70208, 0x90BEFFFA, 0xA4506CEB, 0xBEF9A3F7, 0xC67178F2]

/-- `K[t]`, t = 0..63 (R135). -/
def roundConstant (t : Nat) : Word := roundConstants.getD t 0

/-- `W[i]` of a schedule in the making, i = 0..63. -/
def scheduleWord (w : Vector Word 64) (i : Nat) : Word := w.toList.getD i 0

/-- The first 16 schedule words, "by big-endian decoding of the block"; the other 48 still 0 (R138). -/
def scheduleHead (block : Vector Byte 64) : Vector Word 64 :=
  Vector.ofFn fun i =>
    if h : i.val < 16 then be32 block[4 * i.val] block[4 * i.val + 1] block[4 * i.val + 2] block[4 * i.val + 3] else 0

/-- `W[t] <- Gamma1(W[t-2]) + W[t-7] + Gamma0(W[t-15]) + W[t-16]`, t = 16..63 (R138). -/
def scheduleStep (w : Vector Word 64) (t : Nat) : Vector Word 64 :=
  w.setIfInBounds t
    (gamma1 (scheduleWord w (t - 2)) + scheduleWord w (t - 7) + gamma0 (scheduleWord w (t - 15)) + scheduleWord w (t - 16))

/-- `SCHEDULE(block)` (R138). -/
@[irreducible] def schedule (block : Vector Byte 64) : Vector Word 64 :=
  (List.range' 16 48).foldl scheduleStep (scheduleHead block)

/-- `ROUND(t)` on the working variables, every addition modulo 2^32 (R139). -/
def round (x : Transients) (t : Nat) : Transients :=
  let t1 := x.h + bigSigma1 x.e + ch x.e x.f x.g + roundConstant t + scheduleWord x.w t
  let t2 := bigSigma0 x.a + maj x.a x.b x.c
  { x with
    t := BitVec.ofNat 6 t, t1 := t1, t2 := t2
    h := x.g, g := x.f, f := x.e, e := x.d + t1
    d := x.c, c := x.b, b := x.a, a := t1 + t2 }

/-- The start of COMPRESS: W from the block, a..h from H (R140). -/
def loadWorking (h : Vector Word 8) (block : Vector Byte 64) (x : Transients) : Transients :=
  { x with
    w := schedule block
    a := h[0], b := h[1], c := h[2], d := h[3], e := h[4], f := h[5], g := h[6], h := h[7] }

/-- The 64 rounds of COMPRESS (R140). -/
@[irreducible] def runRounds (x : Transients) : Transients := (List.range 64).foldl round x

/-- The end of COMPRESS: `H[i]` plus the working variable, each modulo 2^32 (R140). -/
def addWorking (h : Vector Word 8) (x : Transients) : Vector Word 8 :=
  #v[h[0] + x.a, h[1] + x.b, h[2] + x.c, h[3] + x.d, h[4] + x.e, h[5] + x.f, h[6] + x.g, h[7] + x.h]

/-- The value COMPRESS gives H, "a total function of (H, block)" (R141). -/
@[irreducible] def compressWords (h : Vector Word 8) (block : Vector Byte 64) : Vector Word 8 :=
  addWorking h (runRounds (loadWorking h block .zero))

/-- `COMPRESS(BUF[0..63])`: writes H and the transients, nothing else (R140). -/
def compress (s : State) : State :=
  let x := runRounds (loadWorking s.h s.buf s.tr)
  { s with tr := x, h := addWorking s.h x }

end Sys2Proof.Machine
end

