-- ==== Sys2Proof/Machine/Flags.lean ====
section
/-! DEFINITION. The flags of CORE and the STATUS word (R28, R29, R36), and the codes of PHASE (R27) and CAUSE (R201). -/

namespace Sys2Proof.Machine

/-- `BUSY = (PEND is not empty)` (R29). -/
def State.busy (s : State) : Bool := s.pend.isSome

/-- The two bits of PHASE (R27). -/
def phaseCode : Phase → BitVec 2
  | .idle => 0
  | .active => 1
  | .done => 2

/-- The four bits of CAUSE (R201). -/
def causeCode : Cause → BitVec 4
  | .none => 0
  | .illegalCmd => 1
  | .sequence => 2
  | .negIter => 3
  | .busyWrite => 4
  | .lenOverflow => 5
  | .badAccess => 6

/-- `STATUS = zext_32(CAUSE || PHASE || ERR || BUSY)` (R36). -/
def statusWord (s : State) : Word :=
  (causeCode s.cause ++ phaseCode s.phase ++ BitVec.ofBool s.err ++ BitVec.ofBool s.busy).setWidth 32

/-- STATUS shows BUSY = 0, PHASE = DONE and ERR = 0: the digest may be read (R168, R236). -/
def resultValid (status : Word) : Bool := status.extractLsb' 0 4 == 0x8#4

end Sys2Proof.Machine
end

