-- ==== Sys2Proof/WellFormed.lean ====
section
/-! DEFINITION. Which command words are legal, by the formula of R86. A term of Instr has no field, so every one is well formed; the checks are those of a raw command word. -/

namespace Sys2Proof

/-- The word with the three fields of a raw command: RSVD in 31:7, NB in 6:4, OP in 3:0 (R81). -/
def RawCommand.word (r : RawCommand) : Word := r.rsvd ++ r.nb ++ r.op

/-- "RSVD ... reserved, must be 0" (R81). -/
def RawCommand.reservedZero (r : RawCommand) : Bool := r.rsvd == 0

/-- OP 0x0..0x6 has a mnemonic, 0x7..0xF is reserved (R82). -/
def RawCommand.opcodeDefined (r : RawCommand) : Bool := r.op.toNat ≤ 6

/-- NB is 0..4 for UPDATE and 0 for every other OP (R81, R83). -/
def RawCommand.byteCountLegal (r : RawCommand) : Bool :=
  if r.op == 2 then r.nb.toNat ≤ 4 else r.nb == 0

/-- A raw command passes all three checks (R86). -/
def RawCommand.wellFormed (r : RawCommand) : Bool :=
  r.reservedZero && r.opcodeDefined && r.byteCountLegal

/-- `legal(v)`, the formula of R86 as the rule writes it. -/
def legal (v : Word) : Bool :=
  v.extractLsb 31 7 == 0 &&
    ((v.extractLsb 3 0 == 0x2#4 && (v.extractLsb 6 4).toNat ≤ 4) ||
     ([0x0#4, 0x1#4, 0x3#4, 0x4#4, 0x5#4, 0x6#4].contains (v.extractLsb 3 0) && v.extractLsb 6 4 == 0))

/-- Every term of Instr is a row of R87, so there is nothing to refuse. -/
def Instr.wellFormed (_ : Instr) : Bool := true

end Sys2Proof
end

