-- ==== Sys2Proof/Decode.lean ====
section
/-! DEFINITION. The decoder, total on every 32-bit word and rejecting by name (R86), and after it the encoder, written from the table of R82 and the format of R81. -/

namespace Sys2Proof

/-- A word cut at the bit positions of R81. -/
def rawCommand (v : Word) : RawCommand :=
  { rsvd := v.extractLsb 31 7, nb := v.extractLsb 6 4, op := v.extractLsb 3 0 }

/-- UPDATE by its byte count (R83): 0..4 are legal. -/
def decodeUpdate (nb : Nat) : Except DecodeError Instr :=
  match nb with
  | 0 => .ok .update0
  | 1 => .ok .update1
  | 2 => .ok .update2
  | 3 => .ok .update3
  | 4 => .ok .update4
  | _ => .error .byteCount

/-- "For every OP other than UPDATE, NB must be 0" (R83). -/
def decodePlain (i : Instr) (nb : Nat) : Except DecodeError Instr :=
  match nb with
  | 0 => .ok i
  | _ => .error .byteCount

/-- The OP values of R82. -/
def decodeFields (r : RawCommand) : Except DecodeError Instr :=
  if r.rsvd ≠ 0 then .error .reservedBits
  else match r.op.toNat with
    | 0x0 => decodePlain .nop r.nb.toNat
    | 0x1 => decodePlain .init r.nb.toNat
    | 0x2 => decodeUpdate r.nb.toNat
    | 0x3 => decodePlain .final r.nb.toNat
    | 0x4 => decodePlain .stretch r.nb.toNat
    | 0x5 => decodePlain .zeroize r.nb.toNat
    | 0x6 => decodePlain .clrerr r.nb.toNat
    | _   => .error .reservedOpcode

/-- The decoder of command words (R86). -/
def decode (v : Word) : Except DecodeError Instr := decodeFields (rawCommand v)

/-- The decoder on an opcode-table row's bits: one 32-bit word, no second word (R80). -/
def decodeTableWord (nbits w : Nat) : Option Instr :=
  let bits := w % 2 ^ nbits
  if bits < 2 ^ 32 then
    match decode (BitVec.ofNat 32 bits) with
    | .ok i => some i
    | .error _ => none
  else none

/-- OP, the operation code of a command (R82). -/
def Instr.op : Instr → BitVec 4
  | .nop => 0x0
  | .init => 0x1
  | .update0 | .update1 | .update2 | .update3 | .update4 => 0x2
  | .final => 0x3
  | .stretch => 0x4
  | .zeroize => 0x5
  | .clrerr => 0x6

/-- NB, the byte count of a command: 0..4 for UPDATE, 0 for every other (R83). -/
def Instr.nb : Instr → BitVec 3
  | .update1 => 1
  | .update2 => 2
  | .update3 => 3
  | .update4 => 4
  | .nop | .init | .update0 | .final | .stretch | .zeroize | .clrerr => 0

/-- The command word of an instruction: RSVD zero, NB in 6:4, OP in 3:0 (R81). -/
def encode (i : Instr) : Word := RawCommand.word { rsvd := 0, nb := i.nb, op := i.op }

end Sys2Proof
end

