-- ==== Sys2Proof/Machine/Operands.lean ====
section
/-! DEFINITION. The operands of the commands: the byte count NB (R83), the data bytes of UPDATE (R84), the count of STRETCH (R85), and the offset and width of a register access (R50, R51). -/

namespace Sys2Proof.Machine

/-- The byte count of a command: NB, "zero-extended, not scaled" (R83). -/
def byteCount (i : Instr) : Nat := i.nb.toNat

/-- The bytes of `UPDATE nb`: byte k is `data[31-8k : 24-8k]` for k = 0..nb-1; the rest of data is ignored (R84). -/
def updateBytes (nb : Nat) (data : Word) : List Byte := (List.range nb).map (wordByte data)

/-- `ITER[31] = 1`: the count, a signed two's-complement number, is negative (R31, R85). -/
def negativeCount (iter : Word) : Bool := iter.msb

/-- `N = iter[30:0]`, the count of an accepted STRETCH (R85). -/
def stretchCount (iter : Word) : BitVec 31 := iter.setWidth 31

/-- The access width in bytes (R51). -/
def sizeBytes : AccessSize → Nat
  | .one => 1
  | .two => 2
  | .four => 4

/-- "Any other access (size 1 or 2, or off[1:0] ≠ 0) is a misaligned or sub-word access" (R55). -/
def badAccess (off : Offset) (size : AccessSize) : Bool :=
  sizeBytes size != 4 || off.extractLsb 1 0 != 0

/-- The offset CORE decodes for a byte address, when the address lies in its window: `off = addr - P_BASE` in 0x00..0x3F (R50, log 7). Instance k's window, that is (R224). -/
def windowOffset (k addr : Nat) : Option Offset :=
  if Config.pBase k ≤ addr ∧ addr < Config.pBase k + 64 then some (BitVec.ofNat 6 (addr - Config.pBase k)) else none

/-- The byte offsets of the register map (R34). -/
def regOffset : Reg → Offset
  | .cmd => 0x00
  | .status => 0x04
  | .dataIn => 0x08
  | .iter => 0x0C
  | .lenLo => 0x10
  | .lenHi => 0x14
  | .digest i => BitVec.ofNat 6 (0x20 + 4 * i.val)

end Sys2Proof.Machine
end

