-- ==== Sys2Proof/Machine/Ops.lean ====
section
/-! DEFINITION. The operations shared by the commands and the accesses: error capture and its clearing, command acceptance, reads of registers, the message buffer, padding, scrubbing, and reset. -/

namespace Sys2Proof.Machine

/-! ### Errors, the only exceptional event of CORE (R200) -/

/-- `raise Error(c)` (R203): the first error since the last clear is kept. Nothing else is saved and no control is transferred (R213). -/
def raiseError (c : Cause) (s : State) : State :=
  if s.err then s else { s with err := true, cause := c }

/-- What CLRERR does to the error record, the nearest thing to a return (R182, R214). -/
def clearError (s : State) : State := { s with err := false, cause := .none }

/-! ### Command acceptance (R208) -/

/-- `PEND <- (op, nb, DATA_IN, ITER)` (R208). -/
def accept (cmd : Instr) (s : State) : State :=
  { s with pend := some { cmd := cmd, data := s.dataIn, iter := s.iter } }

/-- INIT and ZEROIZE are legal in every PHASE (R101, R181). -/
def anyPhase (_ : State) : Option Cause := none

/-- FINAL needs an active instance (R204). -/
def needsActive (s : State) : Option Cause :=
  if s.phase = .active then none else some .sequence

/-- STRETCH: SEQUENCE first, then NEG_ITER (R204, R205, R208). -/
def stretchCheck (s : State) : Option Cause :=
  match needsActive s with
  | some c => some c
  | none => if negativeCount s.iter then some .negIter else none

/-- UPDATE nb: SEQUENCE first, then LEN_OVERFLOW when `LEN + 8*nb > 2^64 - 1` (R204, R206, R208). -/
def updateCheck (nb : Nat) (s : State) : Option Cause :=
  match needsActive s with
  | some c => some c
  | none => if s.len.toNat + 8 * nb > 2 ^ 64 - 1 then some .lenOverflow else none

/-- CommandIssue of a legal word whose command goes through PEND: BUSY_WRITE, then the command's own check, then acceptance (R208). -/
def issue (cmd : Instr) (check : State → Option Cause) (s : State) : State :=
  if s.busy then raiseError .busyWrite s
  else match check s with
    | some c => raiseError c s
    | none => accept cmd s

/-- CommandIssue of NOP or CLRERR, which take effect at acceptance: no PEND, no engine step (R180, R182, R208). -/
def issueAtOnce (effect : State → State) (s : State) : State :=
  if s.busy then raiseError .busyWrite s else effect s

/-- CommandIssue of an illegal word: BUSY_WRITE before ILLEGAL_CMD (R202, R208, R210). -/
def issueIllegal (s : State) : State :=
  if s.busy then raiseError .busyWrite s else raiseError .illegalCmd s

/-! ### Whose move it is -/

/-- The agent that moves next: the head of the schedule; when the schedule has run out, the engine while a command is pending (R240), and otherwise the host (log 1). -/
def State.mover (s : State) : Agent :=
  match s.sched with
  | a :: _ => a
  | [] => if s.busy then .engine else .host

/-- The two moments of a command (R100, log 3): at the engine's move it is performed with the operands PEND holds (R62; with PEND empty the engine has no step), at any other move it is being written to CMD. -/
def atMoment (issued : State → State) (performed : Pending → State → Host.Outcome State Fault Refusal)
    (s : State) : Host.Outcome State Fault Refusal :=
  match s.mover with
  | .engine =>
    match s.pend with
    | some p => performed p s
    | none => .next s
  | .host | .reset => .next (issued s)

/-- The end of an engine step: "sets PEND to empty" (R62). -/
def finishStep (s : State) : State := { s with pend := none }

/-- An engine step that writes BUF[CUR] needs CUR < 64, as R24 promises between engine steps (log 6). -/
def withinBuffer (effect : State → State) (s : State) : Host.Outcome State Fault Refusal :=
  if s.cur.toNat < 64 then .next (effect s) else .fault .cursorOutsideBuffer

/-! ### The message buffer -/

/-- `BUF[CUR] <- byte; CUR <- CUR + 1` (R104, R107). -/
def putByte (b : Byte) (s : State) : State :=
  { s with buf := s.buf.setIfInBounds s.cur.toNat b, cur := s.cur + 1 }

/-- The transients are 0 after an engine step that used them (R32, R112). -/
def scrubTransients (s : State) : State := { s with tr := .zero }

/-- `COMPRESS(BUF[0..63]); CUR <- 0` (R104, R107). -/
def compressBlock (s : State) : State := { compress s with cur := 0 }

/-- `ABSORB(byte)` (R104). The compression's transients are scrubbed here, for UPDATE's step has no later scrub (R32, log 5). -/
def absorb (s : State) (b : Byte) : State :=
  let s1 := putByte b s
  if s1.cur = 64 then scrubTransients (compressBlock s1) else s1

/-- ABSORB of several bytes in order (R103). -/
def absorbAll (bs : List Byte) (s : State) : State := bs.foldl absorb s

/-- `n` times `BUF[CUR] <- 0x00; CUR <- CUR + 1`. -/
def zeroFill : Nat → State → State
  | 0, s => s
  | n + 1, s => zeroFill n (putByte 0 s)

/-- `while CUR < limit: BUF[CUR] <- 0x00; CUR <- CUR + 1` (R107). -/
def zeroFillTo (limit : Nat) (s : State) : State := zeroFill (limit - s.cur.toNat) s

/-- The buffer after `BUF[56 + k] <- len[63-8k : 56-8k]` for k = 0..7 (R108). Irreducible, so that no proof unfolds it by accident. -/
@[irreducible] def lengthInto (len : BitVec 64) (buf : Vector Byte 64) : Vector Byte 64 :=
  (List.range 8).foldl (fun b k => b.setIfInBounds (56 + k) (longByte len k)) buf

/-- `BUF[56 + k] <- LEN[63-8k : 56-8k]` for k = 0..7 (R108). -/
def writeLength (s : State) : State := { s with buf := lengthInto s.len s.buf }

/-- "no room for the 8-byte length": fill the block with zeros, compress it and go on in a fresh one (R107). -/
def padOverflow (s : State) : State :=
  if s.cur.toNat > 56 then compressBlock (zeroFillTo 64 s) else s

/-- `PAD_AND_COMPRESS()` (R107). -/
def padAndCompress (s : State) : State :=
  compressBlock (writeLength (zeroFillTo 56 (padOverflow (putByte 0x80 s))))

/-- `DIG[i] <- H[i]` for i = 0..7 (R111). -/
def latchDigest (s : State) : State := { s with dig := s.h }

/-- `SCRUB_ENGINE()`: H, BUF, CUR, DATA_IN and the transients become 0; LEN, ITER, DIG, ERR and CAUSE stay (R112). -/
def scrubEngine (s : State) : State :=
  { s with h := Vector.replicate 8 0, buf := Vector.replicate 64 0, cur := 0, dataIn := 0, tr := .zero }

/-- `PHASE <- p` (R33). -/
def setPhase (p : Phase) (s : State) : State := { s with phase := p }

/-! ### Register reads (R52) -/

/-- A read of a value that is unspecified while BUSY = 1: a fresh draw (R52, log 4).
DESIGN CHOICE, unsafe (logs 4, 10): the draw depends on this instance's own counter alone, so equal counters of two instances (or of two runs) draw equal values, which the spec (R10, R52) does not say. -/
def readUnlessBusy (v : Word) (s : State) : Word × State :=
  if s.busy then (Config.any32 s.draws, { s with draws := s.draws + 1 }) else (v, s)

/-- The word an aligned 4-byte read returns (R34, R52). -/
def readRegister (off : Offset) (s : State) : Word × State :=
  if off = 0x04 then (statusWord s, s)
  else if off = 0x0C then (s.iter, s)
  else if off = 0x10 then readUnlessBusy (s.len.extractLsb' 0 32) s
  else if off = 0x14 then readUnlessBusy (s.len.extractLsb' 32 32) s
  else if 0x20 ≤ off.toNat then readUnlessBusy (s.dig.toList.getD ((off.toNat - 0x20) / 4) 0) s
  else (0, s)

/-- `RegRead(off, size)` (R52): a bad access returns 0 and is captured (R55, R209). -/
def regRead (off : Offset) (size : AccessSize) (s : State) : BusResponse × State :=
  if badAccess off size then ({ value := some 0, error := true }, raiseError .badAccess s)
  else
    let r := readRegister off s
    ({ value := some r.1, error := false }, r.2)

/-- An aligned 4-byte write to a register other than CMD (R52): DATA_IN and ITER unless busy; read-only and reserved slots ignore it (R34). -/
def writeRegister (off : Offset) (v : Word) (s : State) : State :=
  if off = 0x08 then (if s.busy then raiseError .busyWrite s else { s with dataIn := v })
  else if off = 0x0C then (if s.busy then raiseError .busyWrite s else { s with iter := v })
  else s

/-! ### Reset -/

/-- The reset input: every element of CORE takes its reset value, a pending command is lost (R230, R231). What stands outside CORE stays (log 17). -/
def hwReset (s : State) : State :=
  { State.reset with sched := s.sched, prog := s.prog, handlers := s.handlers, log := s.log, draws := s.draws, unmet := s.unmet }

/-- Apply a state change to the next state of an outcome; a stop stays a stop. -/
def mapNext (f : State → State) : Host.Outcome State Fault Refusal → Host.Outcome State Fault Refusal
  | .next s => .next (f s)
  | .fault r => .fault r
  | .refused r => .refused r

end Sys2Proof.Machine
end

