-- ==== Sys2Proof/Machine/Control.lean ====
section
/-! DEFINITION. The control commands NOP, ZEROIZE and CLRERR (43_control.md R180 to R182). -/

namespace Sys2Proof.Machine

/-- NOP: no effect at acceptance (R180). It is never pending; performed, it would be no effect again. -/
def execNop (s : State) : Host.Outcome State Fault Refusal :=
  atMoment (issueAtOnce id) (fun _ s => .next (finishStep s)) s

/-- ZEROIZE's engine step (R181): ERR, CAUSE and ITER unchanged. -/
def performZeroize (s : State) : State :=
  finishStep
    { s with
      h := Vector.replicate 8 0
      buf := Vector.replicate 64 0
      cur := 0
      len := 0
      dig := Vector.replicate 8 0
      dataIn := 0
      tr := .zero
      phase := .idle }

/-- ZEROIZE (R181). -/
def execZeroize (s : State) : Host.Outcome State Fault Refusal :=
  atMoment (issue .zeroize anyPhase) (fun _ s => .next (performZeroize s)) s

/-- CLRERR: the error record is cleared at acceptance (R182). It is never pending; performed, it would clear it again. -/
def execClrerr (s : State) : Host.Outcome State Fault Refusal :=
  atMoment (issueAtOnce clearError) (fun _ s => .next (finishStep (clearError s))) s

end Sys2Proof.Machine
end

