-- ==== Sys2Proof/Machine/HashEngine.lean ====
section
/-! DEFINITION. The Hash Engine commands INIT, UPDATE 0..4 and FINAL (40_hash_engine.md R100 to R113). -/

namespace Sys2Proof.Machine

/-- INIT's engine step: a fresh instance, whatever PHASE was (R101, R102). -/
def performInit (s : State) : State :=
  finishStep
    { s with
      h := initialHash
      buf := Vector.replicate 64 0
      cur := 0
      len := 0
      dig := Vector.replicate 8 0
      phase := .active }

/-- INIT (R101). -/
def execInit (s : State) : Host.Outcome State Fault Refusal :=
  atMoment (issue .init anyPhase) (fun _ s => .next (performInit s)) s

/-- UPDATE nb's engine step: absorb the bytes, then `LEN <- LEN + 8*nb` (R103). -/
def performUpdate (nb : Nat) (data : Word) (s : State) : State :=
  let s1 := absorbAll (updateBytes nb data) s
  finishStep { s1 with len := s1.len + BitVec.ofNat 64 (8 * nb) }

/-- UPDATE 0: no byte is absorbed, PHASE is still checked (R103, D35). -/
def execUpdate0 (s : State) : Host.Outcome State Fault Refusal :=
  atMoment (issue .update0 (updateCheck 0)) (fun p s => .next (performUpdate 0 p.data s)) s

/-- UPDATE 1 (R103). -/
def execUpdate1 (s : State) : Host.Outcome State Fault Refusal :=
  atMoment (issue .update1 (updateCheck 1)) (fun p s => withinBuffer (performUpdate 1 p.data) s) s

/-- UPDATE 2 (R103). -/
def execUpdate2 (s : State) : Host.Outcome State Fault Refusal :=
  atMoment (issue .update2 (updateCheck 2)) (fun p s => withinBuffer (performUpdate 2 p.data) s) s

/-- UPDATE 3 (R103). -/
def execUpdate3 (s : State) : Host.Outcome State Fault Refusal :=
  atMoment (issue .update3 (updateCheck 3)) (fun p s => withinBuffer (performUpdate 3 p.data) s) s

/-- UPDATE 4 (R103). -/
def execUpdate4 (s : State) : Host.Outcome State Fault Refusal :=
  atMoment (issue .update4 (updateCheck 4)) (fun p s => withinBuffer (performUpdate 4 p.data) s) s

/-- FINAL's engine step: pad and compress, latch the digest, scrub, PHASE <- DONE (R106). -/
def performFinal (s : State) : State :=
  finishStep (setPhase .done (scrubEngine (latchDigest (padAndCompress s))))

/-- FINAL (R106). -/
def execFinal (s : State) : Host.Outcome State Fault Refusal :=
  atMoment (issue .final needsActive) (fun _ s => withinBuffer performFinal s) s

end Sys2Proof.Machine
end

