-- ==== Sys2Proof/Machine/Stretch.lean ====
section
/-! DEFINITION. The iterated digest, the STRETCH loop controller (42_stretch.md R160 to R168). -/

namespace Sys2Proof.Machine

/-- `BLOCK_i` as sixteen words: DIG[0..7], 0x80000000, six words 0, 0x00000100 (R163). -/
def stretchBlockWords (d : Vector Word 8) : List Word :=
  d.toList ++ [0x80000000, 0, 0, 0, 0, 0, 0, 0x00000100]

/-- `BLOCK_i = BYTES32(DIG[0]) || ... || BYTES32(DIG[7]) || 0x80 || 0x00 * 23 || BE64(256)` (R163). -/
@[irreducible] def stretchBlock (d : Vector Word 8) : Vector Byte 64 :=
  Vector.ofFn fun i => ((stretchBlockWords d).flatMap bytes32).getD i.val 0

/-- `STRETCH_ITERATION()`: H <- IV, one compression of BLOCK_i in the engine's own BUF, DIG <- H; LEN, CUR and PHASE are not touched (R162, R163, log 15). -/
def stretchIteration (s : State) : State :=
  latchDigest (compress { s with h := initialHash, buf := stretchBlock s.dig })

/-- `REM <- REM - 1` (R161, R164). -/
def countDown (s : State) : State := { s with tr := { s.tr with rem := s.tr.rem - 1 } }

/-- `while REM != 0: STRETCH_ITERATION(); REM <- REM - 1`, the argument being the value of REM (R161, R164). -/
def stretchLoop : Nat → State → State
  | 0, s => s
  | n + 1, s => stretchLoop n (countDown (stretchIteration s))

/-- `REM <- N`, then the loop (R161). -/
def stretchIterations (n : BitVec 31) (s : State) : State :=
  stretchLoop n.toNat { s with tr := { s.tr with rem := n } }

/-- STRETCH's engine step (R161): FINAL's padding and latch, N re-hashes, scrub, PHASE <- DONE. -/
def performStretch (iter : Word) (s : State) : State :=
  finishStep (setPhase .done (scrubEngine (stretchIterations (stretchCount iter) (latchDigest (padAndCompress s)))))

/-- STRETCH (R161). -/
def execStretch (s : State) : Host.Outcome State Fault Refusal :=
  atMoment (issue .stretch stretchCheck) (fun p s => withinBuffer (performStretch p.iter) s) s

end Sys2Proof.Machine
end

