-- ==== Sys2Proof/Machine/Dispatch.lean ====
section
/-! DEFINITION. The dispatch of a command to its meaning, one arm per row of spec/opcode_table.json. -/

namespace Sys2Proof.Machine

def exec (i : Instr) (s : State) : Host.Outcome State Fault Refusal :=
  match i with
  | .nop => Sys2Proof.Machine.execNop s
  | .init => Sys2Proof.Machine.execInit s
  | .update0 => Sys2Proof.Machine.execUpdate0 s
  | .update1 => Sys2Proof.Machine.execUpdate1 s
  | .update2 => Sys2Proof.Machine.execUpdate2 s
  | .update3 => Sys2Proof.Machine.execUpdate3 s
  | .update4 => Sys2Proof.Machine.execUpdate4 s
  | .final => Sys2Proof.Machine.execFinal s
  | .stretch => Sys2Proof.Machine.execStretch s
  | .zeroize => Sys2Proof.Machine.execZeroize s
  | .clrerr => Sys2Proof.Machine.execClrerr s

end Sys2Proof.Machine
end

