-- ==== Sys2Proof/Machine/Agents.lean ====
section
/-! DEFINITION. What each agent's move does: the host's register writes, CommandIssue among them (R52, R208), the host's program (R89, R90), and the engine step (R62). -/

namespace Sys2Proof.Machine

/-- `CommandIssue(v)` (R208): a legal word is its command's acceptance, any other is ILLEGAL_CMD. -/
def commandIssue (v : Word) (s : State) : Host.Outcome State Fault Refusal :=
  match decode v with
  | .ok i => exec i s
  | .error _ => .next (issueIllegal s)

/-- `RegWrite(off, size, v)` (R52): BAD_ACCESS is checked before everything else (R209). -/
def regWrite (off : Offset) (size : AccessSize) (v : Word) (s : State) : Host.Outcome State Fault Refusal :=
  if badAccess off size then .next (raiseError .badAccess s)
  else if off = 0x00 then commandIssue v s
  else .next (writeRegister off v s)

/-- The platform turns the response into a host trap (P_BUSERR, R209, log 8). -/
def trapsHost (r : BusResponse) : Bool := r.error && Config.busErrorTraps

/-- The end of a host access: its response is recorded (R51, log 11), and the host goes on with the rest of its program, or, where an error response traps it, with what it does from that trap on (log 8). -/
def complete (r : BusResponse) (rest : List HostOp) (s : State) : State :=
  { s with
    log := r :: s.log
    prog := if trapsHost r then s.handlers.headD [] else rest
    handlers := if trapsHost r then s.handlers.tail else s.handlers }

/-- A read of STATUS that ends a host move, as the bus answers it (R36). -/
def statusResponse (s : State) : BusResponse := { value := some (statusWord s), error := false }

/-- One move of the host. WAIT stays where it is while STATUS reads BUSY = 1, and those polls are not recorded; its last read is (R90, R241). CHECKOK records whether its requirement `s[1] == 0` was met (R90, log 12), and the check of R168 skips the moves it guards when the digest may not be read (log 22). -/
def hostMove (op : HostOp) (rest : List HostOp) (s : State) : Host.Outcome State Fault Refusal :=
  match op with
  | .read off size =>
    let r := regRead off size s
    .next (complete r.1 rest r.2)
  | .write off size v => mapNext (complete { value := none, error := badAccess off size } rest) (regWrite off size v s)
  | .wait => if (statusWord s).getLsbD 0 then .next s else .next (complete (statusResponse s) rest s)
  | .checkok =>
    .next (complete (statusResponse s) rest { s with unmet := s.unmet || (statusWord s).getLsbD 1 })
  | .checkdone guarded =>
    .next (complete (statusResponse s) (if resultValid (statusWord s) then rest else rest.drop guarded)
      { s with unmet := s.unmet || !resultValid (statusWord s) })

/-- The host's move: its next access, or none when its program is over (CORE "holds all state while idle", R221). -/
def hostTurn (s : State) : Host.Outcome State Fault Refusal :=
  match s.prog with
  | op :: rest => hostMove op rest s
  | [] => .next s

/-- The engine step (R62): the pending command is performed; "when PEND is empty the engine has no step". -/
def engineTurn (s : State) : Host.Outcome State Fault Refusal :=
  match s.pend with
  | some p => exec p.cmd s
  | none => .next s

/-- The move is made: the schedule goes on (log 1). -/
def advance (s : State) : State := { s with sched := s.sched.tail }

/-- The move of the agent whose turn it is (R60). -/
def agentMove (s : State) : Host.Outcome State Fault Refusal :=
  match s.mover with
  | .host => hostTurn s
  | .engine => engineTurn s
  | .reset => .next (hwReset s)

/-- The state in which the very next move is this move of the host (log 2). -/
def placeMove (op : HostOp) (s : State) : State :=
  { s with sched := .host :: s.sched, prog := op :: s.prog }

/-- The state in which the very next move is the write of the word v to CMD (log 2). -/
def withCommandWord (v : Word) (s : State) : State := placeMove (.write 0x00 .four v) s

end Sys2Proof.Machine
end

