-- ==== Sys2Proof/Machine/Step.lean ====
section
/-! DEFINITION. The step: the agent whose turn it is makes its move (R60), then the schedule goes on. -/

namespace Sys2Proof.Machine

def step (s : State) : Host.Outcome State Fault Refusal := mapNext advance (agentMove s)

/-- The program of CORE "is the sequence of command words the host writes to CMD" (R64): s with the write of that word as the very next move (log 2). -/
def State.withFetchWord (s : State) (nbits w : Nat) : State :=
  withCommandWord (BitVec.ofNat 32 (w % 2 ^ nbits)) s

end Sys2Proof.Machine
end

