-- ==== Sys2Proof/Machine/Assembler.lean ====
section
/-! DEFINITION. Host programs: the statements of R89 and the exact expansions of the pseudo-instructions of R90, the sequence of R168, as the host's moves. -/

namespace Sys2Proof.Machine

/-- `WR <reg>, <value>` (R89). -/
def asmWr (r : Reg) (v : Word) : List HostOp := [.write (regOffset r) .four v]

/-- `RD <reg> -> <name>` (R89). -/
def asmRd (r : Reg) : List HostOp := [.read (regOffset r) .four]

/-- `<MNEMONIC> [<nb>]`: `WR CMD, <the word of R87>` (R89). -/
def asmCommand (i : Instr) : List HostOp := asmWr .cmd (encode i)

/-- UPDATE with its byte count as operand (R89). -/
def updateOf (nb : Fin 5) : Instr :=
  match nb with
  | 0 => .update0
  | 1 => .update1
  | 2 => .update2
  | 3 => .update3
  | 4 => .update4

/-- The host's moves for a statement (R89, R90). -/
def expand : Stmt → List HostOp
  | .wr r v => asmWr r v
  | .rd r => asmRd r
  | .wrb r v => [.write (regOffset r) .one v]
  | .rdb r => [.read (regOffset r) .one]
  | .command i => asmCommand i
  | .wait => [.wait]
  | .push nb w => asmWr .dataIn w ++ asmCommand (updateOf nb) ++ [.wait]
  | .hashbegin => asmCommand .init ++ [.wait]
  | .hashend => asmCommand .final ++ [.wait]
  | .stretchn n => asmWr .iter n ++ asmCommand .stretch ++ [.wait]
  | .readdig => (List.finRange 8).flatMap fun i => asmRd (.digest i)
  | .checkok => [.checkok]
  | .readdigWhenDone => .checkdone 8 :: (List.finRange 8).flatMap fun i => asmRd (.digest i)

/-- A host program's moves, statement by statement. -/
def assemble (p : List Stmt) : List HostOp := p.flatMap expand

/-- The statements that absorb a byte string: `PUSH 4` of each four bytes, then `PUSH r` of the r bytes that remain, in the top bytes of the word (R90). -/
def pushMessage : List Byte → List Stmt
  | [] => []
  | [b0] => [.push 1 (be32 b0 0 0 0)]
  | [b0, b1] => [.push 2 (be32 b0 b1 0 0)]
  | [b0, b1, b2] => [.push 3 (be32 b0 b1 b2 0)]
  | b0 :: b1 :: b2 :: b3 :: rest => .push 4 (be32 b0 b1 b2 b3) :: pushMessage rest

/-- `stretch(x, n)` as a host sequence; the digest is read only when STATUS shows BUSY = 0, PHASE = DONE and ERR = 0 (R168). -/
def stretchProgram (x : List Byte) (n : Word) : List Stmt :=
  .hashbegin :: pushMessage x ++ [.stretchn n, .readdigWhenDone]

/-- The access an address of the platform's makes, when it reaches the window of instance k (R50, R224). -/
def busRead (k addr : Nat) (size : AccessSize) : Option HostOp :=
  (windowOffset k addr).map fun off => .read off size

/-- The write an address of the platform's makes, when it reaches the window of instance k (R50, R224). -/
def busWrite (k addr : Nat) (size : AccessSize) (v : Word) : Option HostOp :=
  (windowOffset k addr).map fun off => .write off size v

end Sys2Proof.Machine
end

