-- ==== Sys2Proof/Machine/System.lean ====
section
/-! DEFINITION. Several CORE instances in one system (R224, P_INSTANCES OPEN; log 10). -/

namespace Sys2Proof.Machine

/-- A system of n instances at its start: "Instances start at reset" (R224).
DESIGN CHOICE, unsafe (logs 4, 10): every instance starts with `draws` = 0 and applies the same Config.any32, so the n-th unspecified reads of two instances are equal in the model; the spec says nothing of how they are related. -/
def systemReset (n : Nat) : List State := List.replicate n State.reset

/-- The instance, of the first n, whose window holds an address, and the offset it decodes (R50, R224). -/
def route (n addr : Nat) : Option (Nat × Offset) :=
  (List.range n).findSome? fun k => (windowOffset k addr).map fun off => (k, off)

/-- An access to an address is the next move of the instance whose window holds it; one outside every window reaches no instance (R50, R224). -/
def systemPlace (addr : Nat) (access : Offset → HostOp) (sys : List State) : List State :=
  match route sys.length addr with
  | some (k, off) => sys.modify k (placeMove (access off))
  | none => sys

/-- Instance k of a system makes a step; a stop of it is a stop of the system. "Instances share no state" (R224). -/
def systemStep (k : Nat) (sys : List State) : Host.Outcome (List State) Fault Refusal :=
  match sys[k]? with
  | none => .next sys
  | some s =>
    match step s with
    | .next s' => .next (sys.set k s')
    | .fault r => .fault r
    | .refused r => .refused r

end Sys2Proof.Machine
end

