-- ==== Sys2Proof/Machine/Message.lean ====
section
/-! DEFINITION. What CORE computes, said without CORE's state: the padded message and its blocks (R110), the digest of a message (R142) and the stretched digest (R160). Claims compare the machine with these. -/

namespace Sys2Proof.Machine

/-- The number of zero bytes between 0x80 and the length: "the least value ≥ 0 with (L + 1 + z + 8) mod 64 = 0" (R110). -/
def padZeros (L : Nat) : Nat := (119 - L % 64) % 64

/-- `P = m || 0x80 || 0x00 * z || BE64(8L)` (R110). -/
def padMessage (m : List Byte) : List Byte :=
  m ++ [0x80] ++ List.replicate (padZeros m.length) 0 ++ bytes64 (BitVec.ofNat 64 (8 * m.length))

/-- The j-th 64-byte block of a byte string. -/
@[irreducible] def messageBlock (m : List Byte) (j : Nat) : Vector Byte 64 :=
  Vector.ofFn fun i => m.getD (64 * j + i.val) 0

/-- The hash state after compressing the first n blocks of a byte string in order, starting from IV (R110). -/
@[irreducible] def hashBlocks (n : Nat) (m : List Byte) : Vector Word 8 :=
  (List.range n).foldl (fun h j => compressWords h (messageBlock m j)) initialHash

/-- `SHA256(m)` as eight words: every block of the padded message, compressed in order from IV (R110, R142). -/
def sha256 (m : List Byte) : Vector Word 8 :=
  hashBlocks ((padMessage m).length / 64) (padMessage m)

/-- `stretch(x, n)`: digest_0 = SHA256(x), then n times SHA256 of the 32 digest bytes (R160). -/
def stretchDigest (x : List Byte) : Nat → Vector Word 8
  | 0 => sha256 x
  | n + 1 => sha256 (bytesOfWords (stretchDigest x n))

/-- A buffer with the bytes bs written from index pos on; what does not fit is dropped. -/
@[irreducible] def written (buf : Vector Byte 64) (pos : Nat) (bs : List Byte) : Vector Byte 64 :=
  Vector.ofFn fun i => if pos ≤ i.val ∧ i.val < pos + bs.length then bs.getD (i.val - pos) 0 else buf[i]

/-- The last block of a message whose final partial block leaves room: bytes, 0x80, zeros, the length (R107, R108). -/
@[irreducible] def lastBlock (buf : Vector Byte 64) (cur : Nat) (len : BitVec 64) : Vector Byte 64 :=
  Vector.ofFn fun i =>
    if i.val < cur then buf[i] else if i.val = cur then 0x80 else if i.val < 56 then 0 else longByte len (i.val - 56)

/-- The first padding block when there is no room for the length: bytes, 0x80, zeros to the end (R107). -/
@[irreducible] def fullPadBlock (buf : Vector Byte 64) (cur : Nat) : Vector Byte 64 :=
  Vector.ofFn fun i => if i.val < cur then buf[i] else if i.val = cur then 0x80 else 0

/-- The second padding block: zeros and the length (R107, R108). -/
@[irreducible] def lengthBlock (len : BitVec 64) : Vector Byte 64 :=
  Vector.ofFn fun i => if i.val < 56 then 0 else longByte len (i.val - 56)

/-- The hash state after padding: one compression when CUR ≤ 55, two when 56 ≤ CUR ≤ 63 (R109). -/
def finalDigest (h : Vector Word 8) (buf : Vector Byte 64) (cur : Nat) (len : BitVec 64) : Vector Word 8 :=
  if cur ≤ 55 then compressWords h (lastBlock buf cur len)
  else compressWords (compressWords h (fullPadBlock buf cur)) (lengthBlock len)

end Sys2Proof.Machine
end

