-- ==== Sys2Proof/Safety.lean ====
section
/-! DEFINITION. The terms of the claims: the invariant between engine steps (R41), what it is for a state to have absorbed a message (R23 to R25), the end of a run and its observation (R241), a run without an error (R223). -/

namespace Sys2Proof.Machine

/-- The commands that go through PEND; NOP and CLRERR take effect at acceptance (R208, D28). -/
def goesThroughPend : Instr → Bool
  | .init | .update0 | .update1 | .update2 | .update3 | .update4 | .final | .stretch | .zeroize => true
  | .nop | .clrerr => false

/-- The commands that need an instance: UPDATE, FINAL and STRETCH (R204). -/
def needsInstance : Instr → Bool
  | .update0 | .update1 | .update2 | .update3 | .update4 | .final | .stretch => true
  | .nop | .init | .zeroize | .clrerr => false

/-- The state has absorbed the message m since INIT: LEN counts its bits (R25), H is the hash of its whole blocks from IV (R104), CUR and BUF hold the bytes that remain (R23, R24). The bytes at CUR and above may be anything. -/
structure State.Absorbed (m : List Byte) (s : State) : Prop where
  length : s.len.toNat = 8 * m.length
  hash : s.h = hashBlocks (m.length / 64) m
  cursor : s.cur.toNat = m.length % 64
  rest : ∀ i, i < m.length % 64 → s.buf.toList.getD i 0 = m.getD (64 * (m.length / 64) + i) 0

/-- What R41 says of a state in the phase ACTIVE, with "the latch reads 0" while PHASE ≠ DONE (R40), and that H, BUF, CUR and LEN are those of some absorbed message (R23 to R25). -/
structure State.ActiveInv (s : State) : Prop where
  cursor : s.cur.toNat = s.len.toNat / 8 % 64
  wholeBytes : s.len.toNat % 8 = 0
  latchClear : s.dig = Vector.replicate 8 0
  message : ∃ m, s.Absorbed m

/-- What R41 says of a state whose phase is not ACTIVE. While DONE, DIG holds the digest of the finished instance, stretched n times (n = 0 after FINAL), and LEN its message length in bits. -/
structure State.InactiveInv (s : State) : Prop where
  cursor : s.cur = 0
  hashClear : s.h = Vector.replicate 8 0
  bufferClear : s.buf = Vector.replicate 64 0
  idleClear : s.phase = .idle → s.len = 0 ∧ s.dig = Vector.replicate 8 0
  digest : s.phase = .done → ∃ (m : List Byte) (n : Nat), n < 2 ^ 31 ∧ s.len.toNat = 8 * m.length ∧ s.dig = stretchDigest m n

/-- What CommandIssue checked of a pending command still holds while it is pending (R208), and its snapshots still are the registers, which cannot be written (R207). -/
structure State.PendInv (s : State) (p : Pending) : Prop where
  kind : goesThroughPend p.cmd = true
  phase : needsInstance p.cmd = true → s.phase = .active
  count : p.cmd = .stretch → negativeCount p.iter = false
  room : s.len.toNat + 8 * byteCount p.cmd < 2 ^ 64
  data : p.data = s.dataIn
  iter : p.iter = s.iter

/-- The invariant between engine steps: R24, R41, R32 (the transients are 0), R28 (CAUSE is NONE while ERR = 0), and what holds of a pending command. -/
structure State.Inv (s : State) : Prop where
  cursor : s.cur.toNat < 64
  active : s.phase = .active → s.ActiveInv
  inactive : s.phase ≠ .active → s.InactiveInv
  transients : s.tr = .zero
  error : s.err = false ↔ s.cause = .none
  pending : ∀ p, s.pend = some p → s.PendInv p

/-- "A run of a host program on CORE ends when the host has performed its last access and BUSY = 0" (R241). -/
def State.runEnded (s : State) : Bool := s.prog.isEmpty && !s.busy

/-- The values the host's reads returned, oldest first (R241). -/
def State.readValues (s : State) : List Word := s.log.reverse.filterMap (·.value)

/-- The observation of a run (R241): the values of the reads and the final STATUS, ITER, LEN_LO, LEN_HI and DIGEST0..7. -/
def State.observation (s : State) : List Word × List Word :=
  (s.readValues, [statusWord s, s.iter, s.len.extractLsb' 0 32, s.len.extractLsb' 32 32] ++ s.dig.toList)

/-- A run that broke no contract, as R223 shapes the premise: ERR = 0 at its end (CLRERR not issued), and every CHECKOK met. -/
def State.clean (s : State) : Bool := !s.err && !s.unmet

end Sys2Proof.Machine
end

