-- ==== Sys2Proof/Certificates/Slice0/Obligations.lean ====
section
/-! DEFINITION. The statements for the provers, one per rule or group of rules of the spec; each docstring names the rules it formalises. -/

open Sys2Proof Sys2Proof.Machine

/-! ### Encoding -/

/-- R87: the eleven legal command words, each with the command it stands for. -/
def Obligations.LegalWordsDecodeToTheirCommands : Prop :=
  decode 0x00000000 = .ok .nop ∧ decode 0x00000001 = .ok .init ∧
  decode 0x00000002 = .ok .update0 ∧ decode 0x00000012 = .ok .update1 ∧ decode 0x00000022 = .ok .update2 ∧
  decode 0x00000032 = .ok .update3 ∧ decode 0x00000042 = .ok .update4 ∧
  decode 0x00000003 = .ok .final ∧ decode 0x00000004 = .ok .stretch ∧
  decode 0x00000005 = .ok .zeroize ∧ decode 0x00000006 = .ok .clrerr

/-- R86: the decoder accepts exactly the words that satisfy `legal`, the formula of the rule; any other word written to CMD is rejected with ILLEGAL_CMD; and no word but 0x00000000 is a NOP. -/
def Obligations.DecodeAcceptsExactlyLegalWords : Prop :=
  ∀ v : Word,
    ((∃ i, decode v = .ok i) ↔
      (v.toNat / 2 ^ 7 = 0 ∧
        ((v.toNat % 16 = 2 ∧ v.toNat / 16 % 8 ≤ 4) ∨
         (v.toNat % 16 ∈ [0, 1, 3, 4, 5, 6] ∧ v.toNat / 16 % 8 = 0)))) ∧
    (∀ s : State, (¬ ∃ i, decode v = .ok i) → s.pend = none →
      commandIssue v s = .next (raiseError .illegalCmd s)) ∧
    (decode v = .ok .nop ↔ v = 0)

/-- R87: a word decodes to a command exactly when it is that command's encoding, so decode of encode is the command and every legal word is listed. -/
def Obligations.DecodeIsInverseOfEncode : Prop :=
  ∀ (v : Word) (i : Instr), decode v = .ok i ↔ v = encode i

/-! ### The compression function -/

/-- R9: ROTR is the circular right rotation, by the formula of the rule, and SHR the right shift. -/
def Obligations.RotrIsCircularRightRotation : Prop :=
  ∀ (x : Word) (n : Nat), 0 < n → n < 32 →
    rotr x n = (x >>> n) ||| (x <<< (32 - n)) ∧ shr x n = x >>> n ∧
    ∀ i, i < 32 → (rotr x n).getLsbD i = x.getLsbD ((i + n) % 32)

/-- R131, R132: Ch and Maj by their formulas; each bit of Ch is chosen by x from y and z; each bit of Maj is the value at least two inputs hold; and the examples of the rules. -/
def Obligations.ChChoosesAndMajTakesTheMajority : Prop :=
  (∀ x y z : Word,
    ch x y z = (x &&& y) ^^^ (~~~x &&& z) ∧ maj x y z = (x &&& y) ^^^ (x &&& z) ^^^ (y &&& z) ∧
    ∀ i, i < 32 →
      (ch x y z).getLsbD i = (if x.getLsbD i then y.getLsbD i else z.getLsbD i) ∧
      ((maj x y z).getLsbD i = true ↔
        2 ≤ (x.getLsbD i).toNat + (y.getLsbD i).toNat + (z.getLsbD i).toNat)) ∧
  ch 0xF0F0F0F0 0x12345678 0x9ABCDEF0 = 0x1A3C5E70 ∧ maj 0xF0F0F0F0 0xCCCCCCCC 0xAAAAAAAA = 0xE8E8E8E8

/-- R133, R134, R136, R137: the rotation and shift amounts, bit by bit, and the examples of the rules. -/
def Obligations.SigmaAndGammaRotateByTheirAmounts : Prop :=
  (∀ (x : Word) (i : Nat), i < 32 →
    (bigSigma0 x).getLsbD i = ((x.getLsbD ((i + 2) % 32)).xor (x.getLsbD ((i + 13) % 32))).xor (x.getLsbD ((i + 22) % 32)) ∧
    (bigSigma1 x).getLsbD i = ((x.getLsbD ((i + 6) % 32)).xor (x.getLsbD ((i + 11) % 32))).xor (x.getLsbD ((i + 25) % 32)) ∧
    (gamma0 x).getLsbD i = ((x.getLsbD ((i + 7) % 32)).xor (x.getLsbD ((i + 18) % 32))).xor (x.getLsbD (i + 3)) ∧
    (gamma1 x).getLsbD i = ((x.getLsbD ((i + 17) % 32)).xor (x.getLsbD ((i + 19) % 32))).xor (x.getLsbD (i + 10))) ∧
  bigSigma0 0x6A09E667 = 0xCE20B47E ∧ bigSigma1 0x510E527F = 0x3587272B ∧
  gamma0 0x00000001 = 0x02004000 ∧ gamma0 0xFFFFFFFF = 0x1FFFFFFF ∧
  gamma1 0x00000001 = 0x0000A000 ∧ gamma1 0xFFFFFFFF = 0x003FFFFF

/-- R135: K[t] is the first 32 bits of the fractional part of the cube root of the (t+1)-th prime. With c the integer part of 2^32 times that root, c is a multiple of 2^32 plus K[t]. -/
def Obligations.RoundConstantsAreCubeRootsOfPrimes : Prop :=
  ∃ primes : List Nat,
    primes = (List.range 312).filter (fun n => decide (2 ≤ n) && (List.range n).all fun d => decide (d < 2) || n % d != 0) ∧
    primes.length = 64 ∧
    ∀ t, t < 64 → ∃ a : Nat,
      (a * 2 ^ 32 + (roundConstant t).toNat) ^ 3 ≤ primes.getD t 0 * 2 ^ 96 ∧
      primes.getD t 0 * 2 ^ 96 < (a * 2 ^ 32 + (roundConstant t).toNat + 1) ^ 3

/-- R138: the sixteen words of the block, then the recurrence. -/
def Obligations.ScheduleFollowsRecurrence : Prop :=
  ∀ (block : Vector Byte 64) (t : Nat),
    (t < 16 → scheduleWord (schedule block) t =
      be32 (block.toList.getD (4 * t) 0) (block.toList.getD (4 * t + 1) 0)
        (block.toList.getD (4 * t + 2) 0) (block.toList.getD (4 * t + 3) 0)) ∧
    (16 ≤ t → t < 64 → scheduleWord (schedule block) t =
      gamma1 (scheduleWord (schedule block) (t - 2)) + scheduleWord (schedule block) (t - 7) +
        gamma0 (scheduleWord (schedule block) (t - 15)) + scheduleWord (schedule block) (t - 16))

/-- R139: one round's t1 and t2, and the relabelling. -/
def Obligations.RoundRelabelsTheWorkingVariables : Prop :=
  ∀ (x : Transients) (t : Nat), t < 64 → ∃ t1 t2 : Word,
    t1 = x.h + bigSigma1 x.e + ch x.e x.f x.g + roundConstant t + scheduleWord x.w t ∧
    t2 = bigSigma0 x.a + maj x.a x.b x.c ∧
    round x t =
      { w := x.w, a := t1 + t2, b := x.a, c := x.b, d := x.c, e := x.d + t1, f := x.e, g := x.f, h := x.g,
        t := BitVec.ofNat 6 t, t1 := t1, t2 := t2, rem := x.rem }

/-- R140: COMPRESS loads W and a..h, runs the 64 rounds, adds the working variables to H, and writes nothing but H and the transients. -/
def Obligations.CompressAddsTheRoundsToTheHashState : Prop :=
  ∀ s : State, ∃ x : Transients,
    x = (List.range 64).foldl round
      { s.tr with
        w := schedule s.buf, a := s.h[0], b := s.h[1], c := s.h[2], d := s.h[3],
        e := s.h[4], f := s.h[5], g := s.h[6], h := s.h[7] } ∧
    compress s =
      { s with
        tr := x
        h := #v[s.h[0] + x.a, s.h[1] + x.b, s.h[2] + x.c, s.h[3] + x.d,
                s.h[4] + x.e, s.h[5] + x.f, s.h[6] + x.g, s.h[7] + x.h] }

/-- R141: what COMPRESS leaves in H is a function of H and the block alone, whatever the transients held. -/
def Obligations.CompressIsAFunctionOfHashAndBlock : Prop :=
  ∀ s : State, (compress s).h = compressWords s.h s.buf

/-- R142: the two official vectors. -/
def Obligations.Sha256OfTheOfficialVectors : Prop :=
  sha256 [] =
    #v[0xE3B0C442, 0x98FC1C14, 0x9AFBF4C8, 0x996FB924, 0x27AE41E4, 0x649B934C, 0xA495991B, 0x7852B855] ∧
  sha256 [0x61, 0x62, 0x63] =
    #v[0xBA7816BF, 0x8F01CFEA, 0x414140DE, 0x5DAE2223, 0xB00361A3, 0x96177A9C, 0xB410FF61, 0xF20015AD]

/-! ### A command written to CMD: acceptance and rejection -/

/-- R208: a command that goes through PEND and passes every check is accepted: PEND holds it with the snapshots of DATA_IN and ITER, and nothing else changes. -/
def Obligations.CheckedCommandIsAccepted : Prop :=
  ∀ (i : Instr) (s : State), s.mover = .host → s.pend = none → goesThroughPend i = true →
    (needsInstance i = true → s.phase = .active) →
    (i = .stretch → s.iter.toNat < 2 ^ 31) →
    s.len.toNat + 8 * byteCount i ≤ 2 ^ 64 - 1 →
    exec i s = .next { s with pend := some { cmd := i, data := s.dataIn, iter := s.iter } }

/-- R180: an accepted NOP changes nothing and does not set PEND; while BUSY = 1 it is rejected with BUSY_WRITE. -/
def Obligations.NopHasNoEffect : Prop :=
  ∀ s : State, s.mover = .host →
    (s.pend = none → exec .nop s = .next s) ∧
    (s.busy = true → exec .nop s = .next (raiseError .busyWrite s))

/-- R182: an accepted CLRERR clears ERR and CAUSE at once, and nothing else; while BUSY = 1 it is rejected with BUSY_WRITE. -/
def Obligations.ClrerrClearsTheErrorRecord : Prop :=
  ∀ s : State, s.mover = .host →
    (s.pend = none → exec .clrerr s = .next { s with err := false, cause := .none }) ∧
    (s.busy = true → exec .clrerr s = .next (raiseError .busyWrite s))

/-- R207: while BUSY = 1 a command, and a write to CMD, DATA_IN or ITER, is rejected with BUSY_WRITE, whatever else is wrong with it; reads are not: STATUS and ITER read normally, LEN and DIG read a free value. -/
def Obligations.WritesWhileBusyAreRejected : Prop :=
  ∀ s : State, s.busy = true →
    (∀ i : Instr, s.mover = .host → exec i s = .next (raiseError .busyWrite s)) ∧
    (∀ (off : Offset) (v : Word), s.mover = .host → off ∈ ([0x00, 0x08, 0x0C] : List Offset) →
      regWrite off .four v s = .next (raiseError .busyWrite s)) ∧
    regRead 0x04 .four s = ({ value := some (statusWord s), error := false }, s) ∧
    regRead 0x0C .four s = ({ value := some s.iter, error := false }, s) ∧
    (∀ off : Offset, (off = 0x10 ∨ off = 0x14 ∨ (0x20 ≤ off.toNat ∧ off.toNat % 4 = 0)) →
      regRead off .four s =
        ({ value := some (Config.any32 s.draws), error := false }, { s with draws := s.draws + 1 }))

/-- R204: UPDATE, FINAL and STRETCH need PHASE = ACTIVE; otherwise only ERR and CAUSE can change, so DIG is not disturbed. -/
def Obligations.CommandWithoutInstanceIsRejected : Prop :=
  ∀ (i : Instr) (s : State), s.mover = .host → s.pend = none → needsInstance i = true → s.phase ≠ .active →
    exec i s = .next (raiseError .sequence s)

/-- R205: STRETCH with a negative count is rejected and the instance stays. -/
def Obligations.NegativeCountIsRejected : Prop :=
  ∀ s : State, s.mover = .host → s.pend = none → s.phase = .active → 2 ^ 31 ≤ s.iter.toNat →
    exec .stretch s = .next (raiseError .negIter s)

/-- R206: an UPDATE that would carry LEN past 2^64 - 1 is rejected; UPDATE 0 never is. -/
def Obligations.LengthOverflowIsRejected : Prop :=
  (∀ (i : Instr) (s : State), s.mover = .host → s.pend = none → s.phase = .active → i.op = 0x2 →
    s.len.toNat + 8 * byteCount i > 2 ^ 64 - 1 → exec i s = .next (raiseError .lenOverflow s)) ∧
  (∀ s : State, s.mover = .host → s.pend = none → s.phase = .active →
    exec .update0 s = .next { s with pend := some { cmd := .update0, data := s.dataIn, iter := s.iter } })

/-- R208, R202: CommandIssue, its checks in their order. The first that fails decides the single cause raised. -/
def Obligations.CommandIssueChecksInOrder : Prop :=
  ∀ (v : Word) (s : State), s.mover = .host →
    ∃ i : Instr, (legal v = true → v = encode i) ∧
      commandIssue v s = .next
        (if s.busy then raiseError .busyWrite s
         else if legal v = false then raiseError .illegalCmd s
         else if v.toNat % 16 ∈ [2, 3, 4] ∧ s.phase ≠ .active then raiseError .sequence s
         else if v.toNat % 16 = 4 ∧ s.iter.getLsbD 31 = true then raiseError .negIter s
         else if v.toNat % 16 = 2 ∧ s.len.toNat + 8 * (v.toNat / 16 % 8) > 2 ^ 64 - 1 then raiseError .lenOverflow s
         else if v.toNat % 16 = 0 then s
         else if v.toNat % 16 = 6 then { s with err := false, cause := .none }
         else { s with pend := some { cmd := i, data := s.dataIn, iter := s.iter } })

/-! ### The engine step of each command -/

/-- R101, R102: INIT is accepted in every phase when nothing is pending, and its engine step creates a fresh instance, whatever the phase was; no error is captured, ITER and DATA_IN stay. -/
def Obligations.InitCreatesAFreshInstance : Prop :=
  encode .init = 0x00000001 ∧
  (∀ s : State, s.mover = .host → s.pend = none →
    exec .init s = .next { s with pend := some { cmd := .init, data := s.dataIn, iter := s.iter } }) ∧
  ∀ (s : State) (p : Pending), s.mover = .engine → s.pend = some p →
    exec .init s = .next
      { s with
        h := #v[0x6A09E667, 0xBB67AE85, 0x3C6EF372, 0xA54FF53A, 0x510E527F, 0x9B05688C, 0x1F83D9AB, 0x5BE0CD19]
        buf := Vector.replicate 64 0
        cur := 0
        len := 0
        dig := Vector.replicate 8 0
        phase := .active
        pend := none }

/-- R103: UPDATE 0 changes nothing but PEND. -/
def Obligations.UpdateOfNoByteChangesNothing : Prop :=
  ∀ (s : State) (p : Pending), s.mover = .engine → s.pend = some p →
    exec .update0 s = .next { s with pend := none }

/-- R103, R104: UPDATE nb writes its bytes at the cursor. When they do not fill the buffer, BUF, CUR and LEN change; when they do, the filled block is compressed once, the rest goes to the start of the buffer, and the transients are 0. -/
def Obligations.UpdateAppendsItsBytes : Prop :=
  ∀ (i : Instr) (s : State) (p : Pending), i.op = 0x2 → s.mover = .engine → s.pend = some p → s.cur.toNat < 64 →
    (s.cur.toNat + byteCount i < 64 →
      exec i s = .next
        { s with
          buf := written s.buf s.cur.toNat (updateBytes (byteCount i) p.data)
          cur := s.cur + BitVec.ofNat 7 (byteCount i)
          len := s.len + BitVec.ofNat 64 (8 * byteCount i)
          pend := none }) ∧
    (64 ≤ s.cur.toNat + byteCount i →
      exec i s = .next
        { s with
          h := compressWords s.h (written s.buf s.cur.toNat (updateBytes (byteCount i) p.data))
          buf := written (written s.buf s.cur.toNat (updateBytes (byteCount i) p.data)) 0
            ((updateBytes (byteCount i) p.data).drop (64 - s.cur.toNat))
          cur := BitVec.ofNat 7 (s.cur.toNat + byteCount i - 64)
          len := s.len + BitVec.ofNat 64 (8 * byteCount i)
          tr := .zero
          pend := none })

/-- R106 to R109, R111, R112: FINAL pads, compresses once or twice, latches the digest, scrubs, and PHASE becomes DONE. -/
def Obligations.FinalLatchesThePaddedDigest : Prop :=
  ∀ (s : State) (p : Pending), s.mover = .engine → s.pend = some p → s.cur.toNat < 64 →
    exec .final s = .next
      { s with
        h := Vector.replicate 8 0
        buf := Vector.replicate 64 0
        cur := 0
        dig := finalDigest s.h s.buf s.cur.toNat s.len
        dataIn := 0
        tr := .zero
        phase := .done
        pend := none }

/-- R161 to R164: STRETCH finalizes and re-hashes the digest N = iter[30:0] times, each time one compression of BLOCK_i from IV. -/
def Obligations.StretchRehashesTheDigest : Prop :=
  ∀ (s : State) (p : Pending), s.mover = .engine → s.pend = some p → s.cur.toNat < 64 →
    exec .stretch s = .next
      { s with
        h := Vector.replicate 8 0
        buf := Vector.replicate 64 0
        cur := 0
        dig := (fun d => compressWords initialHash (stretchBlock d))^[p.iter.toNat % 2 ^ 31]
          (finalDigest s.h s.buf s.cur.toNat s.len)
        dataIn := 0
        tr := .zero
        phase := .done
        pend := none }

/-- R165: STRETCH with count 0 and FINAL produce the same state. -/
def Obligations.StretchOfCountZeroIsFinal : Prop :=
  ∀ (s : State) (p : Pending), s.mover = .engine → s.pend = some p → p.iter = 0 →
    exec .stretch s = exec .final s

/-- R181: ZEROIZE is accepted in every phase when nothing is pending, and its engine step scrubs every sensitive element and ends any instance; ERR, CAUSE and ITER stay. -/
def Obligations.ZeroizeScrubsEverySensitiveElement : Prop :=
  encode .zeroize = 0x00000005 ∧
  (∀ s : State, s.mover = .host → s.pend = none →
    exec .zeroize s = .next { s with pend := some { cmd := .zeroize, data := s.dataIn, iter := s.iter } }) ∧
  ∀ (s : State) (p : Pending), s.mover = .engine → s.pend = some p →
    exec .zeroize s = .next
      { s with
        h := Vector.replicate 8 0
        buf := Vector.replicate 64 0
        cur := 0
        len := 0
        dig := Vector.replicate 8 0
        dataIn := 0
        tr := { w := Vector.replicate 64 0, a := 0, b := 0, c := 0, d := 0, e := 0, f := 0, g := 0, h := 0,
                t := 0, t1 := 0, t2 := 0, rem := 0 }
        phase := .idle
        pend := none }

/-- R24 and log entry 6 (the model's choice): with CUR ≥ 64, where BUF[CUR] is no byte, the engine step of a command that writes BUF[CUR] stops with a fault. No run reaches such a state. -/
def Obligations.CursorOutsideTheBufferStops : Prop :=
  ∀ (i : Instr) (s : State) (p : Pending), needsInstance i = true → i ≠ .update0 →
    s.mover = .engine → s.pend = some p → 64 ≤ s.cur.toNat → exec i s = .fault .cursorOutsideBuffer

/-! ### Register accesses -/

/-- R52: RegRead and RegWrite, slot by slot. While BUSY = 1 the reads of LEN and DIG return a fresh free value. -/
def Obligations.AccessesDecodeTheRegisterMap : Prop :=
  ∀ (s : State) (v : Word),
    (∀ (off : Offset) (size : AccessSize), (size ≠ .four ∨ off.toNat % 4 ≠ 0) →
      regRead off size s = ({ value := some 0, error := true }, raiseError .badAccess s) ∧
      regWrite off size v s = .next (raiseError .badAccess s)) ∧
    regRead 0x04 .four s = ({ value := some (statusWord s), error := false }, s) ∧
    regRead 0x0C .four s = ({ value := some s.iter, error := false }, s) ∧
    (s.pend = none →
      regRead 0x10 .four s = ({ value := some (BitVec.ofNat 32 s.len.toNat), error := false }, s) ∧
      regRead 0x14 .four s = ({ value := some (BitVec.ofNat 32 (s.len.toNat / 2 ^ 32)), error := false }, s) ∧
      ∀ i : Fin 8, regRead (BitVec.ofNat 6 (0x20 + 4 * i.val)) .four s = ({ value := some s.dig[i], error := false }, s)) ∧
    (s.busy = true → ∀ off : Offset, (off = 0x10 ∨ off = 0x14 ∨ (0x20 ≤ off.toNat ∧ off.toNat % 4 = 0)) →
      regRead off .four s =
        ({ value := some (Config.any32 s.draws), error := false }, { s with draws := s.draws + 1 })) ∧
    (∀ off : Offset, off ∈ ([0x00, 0x08, 0x18, 0x1C] : List Offset) →
      regRead off .four s = ({ value := some 0, error := false }, s)) ∧
    regWrite 0x00 .four v s = commandIssue v s ∧
    (s.busy = true →
      regWrite 0x08 .four v s = .next (raiseError .busyWrite s) ∧
      regWrite 0x0C .four v s = .next (raiseError .busyWrite s)) ∧
    (s.pend = none →
      regWrite 0x08 .four v s = .next { s with dataIn := v } ∧
      regWrite 0x0C .four v s = .next { s with iter := v }) ∧
    (∀ off : Offset, off.toNat % 4 = 0 → off ∉ ([0x00, 0x08, 0x0C] : List Offset) →
      regWrite off .four v s = .next s)

/-- R36: STATUS = BUSY | ERR<<1 | PHASE<<2 | CAUSE<<4, with the codes of R27 and R201; reading it has no side effect, writes are ignored. -/
def Obligations.StatusShowsBusyErrPhaseCause : Prop :=
  ∀ (s : State) (v : Word),
    (statusWord s).toNat =
      (if s.pend = none then 0 else 1) + (if s.err then 2 else 0) +
        (match s.phase with | .idle => 0 | .active => 4 | .done => 8) +
        (match s.cause with
          | .none => 0x00 | .illegalCmd => 0x10 | .sequence => 0x20 | .negIter => 0x30
          | .busyWrite => 0x40 | .lenOverflow => 0x50 | .badAccess => 0x60) ∧
    regRead 0x04 .four s = ({ value := some (statusWord s), error := false }, s) ∧
    regWrite 0x04 .four v s = .next s

/-- R40: digest byte 4*i + k is DIG[i][31-8k : 24-8k], and there are 32. -/
def Obligations.DigestBytesAreBigEndian : Prop :=
  ∀ d : Vector Word 8, (bytesOfWords d).length = 32 ∧
    ∀ (i : Fin 8) (k : Nat), k < 4 →
      ((bytesOfWords d).getD (4 * i.val + k) 0).toNat = d[i].toNat / 2 ^ (24 - 8 * k) % 256

/-- R84: the result of UPDATE nb does not depend on the bytes of its data beyond nb. -/
def Obligations.UpdateIgnoresTheUnusedDataBytes : Prop :=
  ∀ (i : Instr) (s : State) (p q : Pending), i.op = 0x2 → s.mover = .engine → s.pend = some p →
    p.data.toNat / 2 ^ (32 - 8 * byteCount i) = q.data.toNat / 2 ^ (32 - 8 * byteCount i) →
    exec i s = exec i { s with pend := some q }

/-- R50, R224: P_BASE of every instance is a multiple of 64; the addresses of its window, and no others, are offsets 0x00..0x3F; and no address lies in the windows of two instances. -/
def Obligations.WindowOfSixtyFourBytesAtBase : Prop :=
  (∀ k : Nat, Config.pBase k % 64 = 0) ∧
  (∀ (k addr : Nat) (off : Offset), windowOffset k addr = some off ↔ addr = Config.pBase k + off.toNat) ∧
  ∀ (k j addr : Nat) (a b : Offset), windowOffset k addr = some a → windowOffset j addr = some b → k = j

/-! ### The step, reset and the agents -/

/-- R60, R62, R64: when the host's next access writes a word to CMD that decodes to i, the step is exec of i, and then the access is recorded, the host's program goes on and the schedule goes on; when the engine moves with p pending, the step is exec of p's command, and the schedule goes on. -/
def Obligations.StepRunsTheDecodedCommand : Prop :=
  (∀ (s : State) (v : Word) (rest : List HostOp) (i : Instr),
    s.mover = .host → s.prog = .write 0x00 .four v :: rest → decode v = .ok i →
    step s = mapNext
      (fun t => { t with log := { value := none, error := false } :: t.log, prog := rest, sched := t.sched.tail })
      (exec i s)) ∧
  (∀ (s : State) (p : Pending), s.mover = .engine → s.pend = some p →
    step s = mapNext (fun t => { t with sched := t.sched.tail }) (exec p.cmd s))

/-- R51, R60: at the host's move its next access is performed, its response is recorded, and the schedule goes on. The program goes on too, unless the response is an error and P_BUSERR turns it into a host trap: then the host goes on with what it does from that trap on (R209, log 8). CHECKOK (R90, log 12) and the check of R168 (log 22) are reads of STATUS, recorded as such. A program that is over changes nothing. -/
def Obligations.StepPerformsTheNextAccess : Prop :=
  ∀ (s : State) (rest : List HostOp), s.mover = .host →
    (∀ (off : Offset) (size : AccessSize), s.prog = .read off size :: rest →
      (regRead off size s).1.error = false ∨ Config.busErrorTraps = false →
      step s = .next { (regRead off size s).2 with
        log := (regRead off size s).1 :: s.log, prog := rest, sched := s.sched.tail }) ∧
    (∀ (off : Offset) (size : AccessSize), s.prog = .read off size :: rest →
      (regRead off size s).1.error = true → Config.busErrorTraps = true →
      step s = .next { (regRead off size s).2 with
        log := (regRead off size s).1 :: s.log, prog := s.handlers.headD [], handlers := s.handlers.tail,
        sched := s.sched.tail }) ∧
    (∀ (off : Offset) (size : AccessSize) (v : Word), s.prog = .write off size v :: rest →
      badAccess off size = false ∨ Config.busErrorTraps = false →
      step s = mapNext
        (fun t => { t with log := { value := none, error := badAccess off size } :: t.log, prog := rest,
                           sched := t.sched.tail })
        (regWrite off size v s)) ∧
    (∀ (off : Offset) (size : AccessSize) (v : Word), s.prog = .write off size v :: rest →
      badAccess off size = true → Config.busErrorTraps = true →
      step s = .next { raiseError .badAccess s with
        log := { value := none, error := true } :: s.log, prog := s.handlers.headD [], handlers := s.handlers.tail,
        sched := s.sched.tail }) ∧
    (s.prog = .checkok :: rest →
      step s = .next { s with
        log := { value := some (statusWord s), error := false } :: s.log, prog := rest, unmet := s.unmet || s.err,
        sched := s.sched.tail }) ∧
    (∀ guarded : Nat, s.prog = .checkdone guarded :: rest →
      (s.pend = none ∧ s.err = false ∧ s.phase = .done →
        step s = .next { s with
          log := { value := some (statusWord s), error := false } :: s.log, prog := rest, sched := s.sched.tail }) ∧
      (¬ (s.pend = none ∧ s.err = false ∧ s.phase = .done) →
        step s = .next { s with
          log := { value := some (statusWord s), error := false } :: s.log, prog := rest.drop guarded, unmet := true,
          sched := s.sched.tail })) ∧
    (s.prog = [] → step s = .next { s with sched := s.sched.tail })

/-- R62: when PEND is empty the engine has no step: its entry of the schedule passes, and nothing of CORE changes. -/
def Obligations.EngineHasNoStepWhenNothingIsPending : Prop :=
  ∀ s : State, s.mover = .engine → s.pend = none → step s = .next { s with sched := s.sched.tail }

/-- R230: every element is 0 after reset, so every readable register reads 0. -/
def Obligations.ResetClearsEveryElement : Prop :=
  (∀ i : Fin 8, State.reset.h[i] = 0 ∧ State.reset.dig[i] = 0) ∧ (∀ j : Fin 64, State.reset.buf[j] = 0) ∧
  State.reset.cur = 0 ∧ State.reset.len = 0 ∧ State.reset.phase = .idle ∧ State.reset.err = false ∧
  State.reset.cause = .none ∧ State.reset.pend = none ∧ State.reset.dataIn = 0 ∧ State.reset.iter = 0 ∧
  (∀ t : Fin 64, State.reset.tr.w[t] = 0) ∧
  State.reset.tr.a = 0 ∧ State.reset.tr.b = 0 ∧ State.reset.tr.c = 0 ∧ State.reset.tr.d = 0 ∧ State.reset.tr.e = 0 ∧
  State.reset.tr.f = 0 ∧ State.reset.tr.g = 0 ∧ State.reset.tr.h = 0 ∧ State.reset.tr.t = 0 ∧ State.reset.tr.t1 = 0 ∧
  State.reset.tr.t2 = 0 ∧ State.reset.tr.rem = 0 ∧
  ∀ off : Offset, off.toNat % 4 = 0 → regRead off .four State.reset = ({ value := some 0, error := false }, State.reset)

/-- R231: reset abandons a pending command; every element of CORE takes its reset value, and only what stands outside CORE stays. -/
def Obligations.ResetAbandonsThePendingCommand : Prop :=
  ∀ s : State, s.mover = .reset →
    step s = .next
      { State.reset with sched := s.sched.tail, prog := s.prog, handlers := s.handlers, log := s.log, draws := s.draws,
                         unmet := s.unmet }

/-- R33: PHASE changes only by the engine steps of the table (and by reset). NOP and CLRERR are never pending (R208), which the last arm says. -/
def Obligations.PhaseFollowsTheLifecycle : Prop :=
  ∀ s t : State, s.Inv → step s = .next t → s.mover ≠ .reset →
    (s.mover = .host → t.phase = s.phase) ∧
    (s.mover = .engine → s.pend = none → t.phase = s.phase) ∧
    (∀ p, s.mover = .engine → s.pend = some p →
      match p.cmd with
      | .init => t.phase = .active
      | .update0 | .update1 | .update2 | .update3 | .update4 => s.phase = .active ∧ t.phase = .active
      | .final | .stretch => s.phase = .active ∧ t.phase = .done
      | .zeroize => t.phase = .idle
      | .nop | .clrerr => False)

/-- R203: `raise Error(c)` keeps the first error since the last clear, and ERR and CAUSE are then stable until CLRERR or reset. -/
def Obligations.FirstErrorIsKeptUntilCleared : Prop :=
  (∀ (c : Cause) (s : State),
    (s.err = false → raiseError c s = { s with err := true, cause := c }) ∧
    (s.err = true → raiseError c s = s)) ∧
  ∀ s t : State, s.Inv → step s = .next t → s.err = true →
    (t.err = true ∧ t.cause = s.cause) ∨ s.mover = .reset ∨
    (s.mover = .host ∧ s.pend = none ∧ ∃ rest, s.prog = .write 0x00 .four (encode .clrerr) :: rest)

/-- R25: LEN never decreases but by INIT, ZEROIZE or reset. -/
def Obligations.LengthNeverDecreasesWithinAnInstance : Prop :=
  ∀ s t : State, s.Inv → step s = .next t →
    s.len.toNat ≤ t.len.toNat ∨ s.mover = .reset ∨
    (s.mover = .engine ∧ ∃ p, s.pend = some p ∧ (p.cmd = .init ∨ p.cmd = .zeroize))

/-- R26: only FINAL and STRETCH write the digest latch, INIT and ZEROIZE (and reset) clear it, nothing else writes it. -/
def Obligations.DigestLatchIsWrittenByFinalAndStretchOnly : Prop :=
  ∀ s t : State, step s = .next t →
    t.dig = s.dig ∨ (s.mover = .reset ∧ t.dig = Vector.replicate 8 0) ∨
    (s.mover = .engine ∧ ∃ p, s.pend = some p ∧
      (((p.cmd = .init ∨ p.cmd = .zeroize) ∧ t.dig = Vector.replicate 8 0) ∨ p.cmd = .final ∨ p.cmd = .stretch))

/-- R31, R30: no command modifies ITER; only the host's write to it (and reset) does. DATA_IN is written by the host's write to it, and made 0 by FINAL, STRETCH, ZEROIZE and reset; nothing else writes it. -/
def Obligations.OperandRegistersAreWrittenByTheirRulesOnly : Prop :=
  ∀ s t : State, step s = .next t →
    (t.iter = s.iter ∨ (s.mover = .reset ∧ t.iter = 0) ∨
      (s.mover = .host ∧ s.pend = none ∧ ∃ v rest, s.prog = .write 0x0C .four v :: rest ∧ t.iter = v)) ∧
    (t.dataIn = s.dataIn ∨ (s.mover = .reset ∧ t.dataIn = 0) ∨
      (s.mover = .host ∧ s.pend = none ∧ ∃ v rest, s.prog = .write 0x08 .four v :: rest ∧ t.dataIn = v) ∨
      (s.mover = .engine ∧ t.dataIn = 0 ∧
        ∃ p, s.pend = some p ∧ (p.cmd = .final ∨ p.cmd = .stretch ∨ p.cmd = .zeroize)))

/-- R21: only the engine steps of INIT (to the initial hash value), of an UPDATE that fills the buffer (one compression), of FINAL, STRETCH and ZEROIZE (to 0, the scrub), and reset (to 0) write H. -/
def Obligations.HashStateIsWrittenByEngineStepsOnly : Prop :=
  ∀ s t : State, step s = .next t →
    t.h = s.h ∨ (s.mover = .reset ∧ t.h = Vector.replicate 8 0) ∨
    (s.mover = .engine ∧ ∃ p, s.pend = some p ∧
      ((p.cmd = .init ∧ t.h = initialHash) ∨
       (p.cmd.op = 0x2 ∧ 64 ≤ s.cur.toNat + byteCount p.cmd ∧ ∃ block, t.h = compressWords s.h block) ∨
       ((p.cmd = .final ∨ p.cmd = .stretch ∨ p.cmd = .zeroize) ∧ t.h = Vector.replicate 8 0)))

/-- R21: no register reads H (nor BUF, CUR or the transients): a move of the host is the same whatever they hold. A move that draws an unspecified value (R52) is left out: of that value the spec gives no law (log 4). -/
def Obligations.HostCannotReadTheHashState : Prop :=
  ∀ (s t : State) (h : Vector Word 8) (buf : Vector Byte 64) (cur : BitVec 7) (tr : Transients),
    s.mover = .host → step s = .next t → t.draws = s.draws →
    step { s with h := h, buf := buf, cur := cur, tr := tr } =
      .next { t with h := h, buf := buf, cur := cur, tr := tr }

/-- R63, R207: while a command is pending, no move of the host changes it, its operands, or any element the engine works on. -/
def Obligations.HostCannotDisturbAPendingCommand : Prop :=
  ∀ s t : State, s.mover = .host → s.busy = true → step s = .next t →
    t = { s with err := t.err, cause := t.cause, sched := s.sched.tail, prog := t.prog, handlers := t.handlers,
                 log := t.log, draws := t.draws, unmet := t.unmet }

/-- R90, R241: WAIT reads STATUS again while BUSY = 1; its last read, with BUSY = 0, is recorded, and then the program goes on. -/
def Obligations.WaitPollsUntilNotBusy : Prop :=
  ∀ (s : State) (rest : List HostOp), s.mover = .host → s.prog = .wait :: rest →
    (s.busy = true → step s = .next { s with sched := s.sched.tail }) ∧
    (s.pend = none → step s = .next { s with
      log := { value := some (statusWord s), error := false } :: s.log, prog := rest, sched := s.sched.tail })

/-- R90: the exact expansions of the pseudo-instructions. WAIT and CHECKOK, which read STATUS and look at the value, expand to moves of the host of the model's own, `.wait` and `.checkok` (logs 11 and 12, DESIGN CHOICE): what those do is WaitPollsUntilNotBusy and StepPerformsTheNextAccess. -/
def Obligations.PseudoInstructionsExpandExactly : Prop :=
  (∀ w : Word, (∀ nb : Fin 5, ∃ i : Instr, i.op = 0x2 ∧ byteCount i = nb.val ∧
    expand (.push nb w) = [.write 0x08 .four w, .write 0x00 .four (encode i), .wait])) ∧
  expand .hashbegin = [.write 0x00 .four 0x00000001, .wait] ∧
  expand .hashend = [.write 0x00 .four 0x00000003, .wait] ∧
  (∀ n : Word, expand (.stretchn n) = [.write 0x0C .four n, .write 0x00 .four 0x00000004, .wait]) ∧
  expand .readdig = [.read 0x20 .four, .read 0x24 .four, .read 0x28 .four, .read 0x2C .four,
    .read 0x30 .four, .read 0x34 .four, .read 0x38 .four, .read 0x3C .four] ∧
  expand .wait = [.wait] ∧ expand .checkok = [.checkok]

/-- R224: several instances. Each starts at reset; a step of instance k is the step of its own state alone, whatever the others hold, and leaves every other instance as it is; an access to an address of its window is the next move of that instance and no other. -/
def Obligations.InstancesShareNoState : Prop :=
  (∀ n k : Nat, k < n → (systemReset n)[k]? = some State.reset) ∧
  (∀ (k : Nat) (sys : List State) (s t : State), sys[k]? = some s → step s = .next t →
    ∃ sys', systemStep k sys = .next sys' ∧ sys'[k]? = some t ∧ ∀ j, j ≠ k → sys'[j]? = sys[j]?) ∧
  (∀ (k : Nat) (sys sys' : List State), systemStep k sys = .next sys' →
    (∀ s, sys[k]? = some s → ∃ t, step s = .next t ∧ sys'[k]? = some t) ∧
    (∀ j, j ≠ k → sys'[j]? = sys[j]?) ∧ sys'.length = sys.length) ∧
  (∀ (k addr : Nat) (off : Offset) (access : Offset → HostOp) (sys : List State),
    k < sys.length → windowOffset k addr = some off →
    (systemPlace addr access sys)[k]? = sys[k]?.map (placeMove (access off)) ∧
    ∀ j, j ≠ k → (systemPlace addr access sys)[j]? = sys[j]?)

/-! ### Invariants, completion and the digest -/

/-- R41, R230: the invariant holds after reset. -/
def Obligations.InvariantHoldsAtReset : Prop := State.reset.Inv

/-- R41, R24, R32: every step keeps the invariant, the clauses that tie H, BUF, CUR and LEN to an absorbed message while ACTIVE, and DIG and LEN to the digest of a finished one while DONE, among them. -/
def Obligations.EveryStepKeepsTheInvariant : Prop :=
  ∀ s t : State, s.Inv → step s = .next t → t.Inv

/-- R200: CORE does not halt on an error: from a state that meets the invariant every step gives a next state. -/
def Obligations.CoreNeverHalts : Prop := ∀ s : State, s.Inv → ∃ t, step s = .next t

/-- R240: a pending command is performed after finitely many steps, at most as many as the schedule holds, and is pending with its operands until then; only reset stops it. -/
def Obligations.PendingCommandIsPerformed : Prop :=
  ∀ (s : State) (p : Pending), s.Inv → s.pend = some p → Agent.reset ∉ s.sched →
    ∃ (n : Nat) (u t : State), n ≤ s.sched.length ∧ Sys2Proof.core.run n s = .next u ∧
      u.mover = .engine ∧ u.pend = some p ∧ u.h = s.h ∧ u.buf = s.buf ∧ u.cur = s.cur ∧ u.len = s.len ∧
      step u = .next t ∧ t.pend = none

/-- R110: z is the least number of zero bytes that makes the padded length a multiple of 64. -/
def Obligations.PaddingIsLeast : Prop :=
  ∀ L : Nat, (L + 1 + padZeros L + 8) % 64 = 0 ∧ ∀ z, z < padZeros L → (L + 1 + z + 8) % 64 ≠ 0

/-- R101, R23 to R25: after INIT's engine step the state has absorbed the empty message. -/
def Obligations.InitAbsorbsTheEmptyMessage : Prop :=
  ∀ (s : State) (p : Pending), s.mover = .engine → s.pend = some p →
    ∃ t, exec .init s = .next t ∧ t.Absorbed [] ∧ t.phase = .active

/-- R103 to R105: UPDATE nb appends its nb bytes to the absorbed message, however the message was split before. -/
def Obligations.UpdateExtendsTheAbsorbedMessage : Prop :=
  ∀ (i : Instr) (m : List Byte) (s : State) (p : Pending), i.op = 0x2 → s.mover = .engine → s.pend = some p →
    s.Absorbed m → s.len.toNat + 8 * byteCount i ≤ 2 ^ 64 - 1 →
    ∃ t, exec i s = .next t ∧ t.Absorbed (m ++ updateBytes (byteCount i) p.data) ∧ t.phase = s.phase

/-- R110, R142: FINAL latches SHA256 of the absorbed message. -/
def Obligations.FinalComputesSha256OfTheMessage : Prop :=
  ∀ (m : List Byte) (s : State) (p : Pending), s.mover = .engine → s.pend = some p → s.Absorbed m →
    ∃ t, exec .final s = .next t ∧ t.dig = sha256 m ∧ t.len = s.len ∧ t.phase = .done

/-- R160, R161, R167: STRETCH latches stretch(m, N), that is N + 1 applications of SHA256. -/
def Obligations.StretchComputesTheIteratedDigest : Prop :=
  ∀ (m : List Byte) (s : State) (p : Pending), s.mover = .engine → s.pend = some p → s.Absorbed m →
    ∃ t, exec .stretch s = .next t ∧
      t.dig = stretchDigest m (p.iter.toNat % 2 ^ 31) ∧ t.phase = .done

/-- R163: SHA256 of 32 digest bytes is one compression of BLOCK_i from IV. -/
def Obligations.RehashIsOneCompression : Prop :=
  ∀ d : Vector Word 8, sha256 (bytesOfWords d) = compressWords initialHash (stretchBlock d)

/-- R23: no output depends on the bytes of BUF at CUR and above: FINAL and STRETCH give the same state whatever they hold. -/
def Obligations.StaleBufferBytesDoNotMatter : Prop :=
  ∀ (i : Instr) (s : State) (p : Pending) (b : Vector Byte 64), i = .final ∨ i = .stretch →
    s.mover = .engine → s.pend = some p → (∀ j : Fin 64, j.val < s.cur.toNat → b[j] = s.buf[j]) →
    exec i { s with buf := b } = exec i s
end

