-- ==== Sys2Proof/Laws/State.lean ====
section
/-! SUPPORT. One lemma per field and named state change, true by computation, so that no later proof unfolds a record update. -/

namespace Sys2Proof.Machine

/-! ### clearError -/

@[simp] theorem clearError_h (s : State) : (clearError s).h = s.h := rfl
@[simp] theorem clearError_buf (s : State) : (clearError s).buf = s.buf := rfl
@[simp] theorem clearError_cur (s : State) : (clearError s).cur = s.cur := rfl
@[simp] theorem clearError_len (s : State) : (clearError s).len = s.len := rfl
@[simp] theorem clearError_dig (s : State) : (clearError s).dig = s.dig := rfl
@[simp] theorem clearError_phase (s : State) : (clearError s).phase = s.phase := rfl
@[simp] theorem clearError_err (s : State) : (clearError s).err = false := rfl
@[simp] theorem clearError_cause (s : State) : (clearError s).cause = .none := rfl
@[simp] theorem clearError_pend (s : State) : (clearError s).pend = s.pend := rfl
@[simp] theorem clearError_dataIn (s : State) : (clearError s).dataIn = s.dataIn := rfl
@[simp] theorem clearError_iter (s : State) : (clearError s).iter = s.iter := rfl
@[simp] theorem clearError_tr (s : State) : (clearError s).tr = s.tr := rfl
@[simp] theorem clearError_sched (s : State) : (clearError s).sched = s.sched := rfl
@[simp] theorem clearError_prog (s : State) : (clearError s).prog = s.prog := rfl
@[simp] theorem clearError_log (s : State) : (clearError s).log = s.log := rfl
@[simp] theorem clearError_draws (s : State) : (clearError s).draws = s.draws := rfl
@[simp] theorem clearError_handlers (s : State) : (clearError s).handlers = s.handlers := rfl
@[simp] theorem clearError_unmet (s : State) : (clearError s).unmet = s.unmet := rfl

/-! ### accept -/

@[simp] theorem accept_h (cmd : Instr) (s : State) : (accept cmd s).h = s.h := rfl
@[simp] theorem accept_buf (cmd : Instr) (s : State) : (accept cmd s).buf = s.buf := rfl
@[simp] theorem accept_cur (cmd : Instr) (s : State) : (accept cmd s).cur = s.cur := rfl
@[simp] theorem accept_len (cmd : Instr) (s : State) : (accept cmd s).len = s.len := rfl
@[simp] theorem accept_dig (cmd : Instr) (s : State) : (accept cmd s).dig = s.dig := rfl
@[simp] theorem accept_phase (cmd : Instr) (s : State) : (accept cmd s).phase = s.phase := rfl
@[simp] theorem accept_err (cmd : Instr) (s : State) : (accept cmd s).err = s.err := rfl
@[simp] theorem accept_cause (cmd : Instr) (s : State) : (accept cmd s).cause = s.cause := rfl
@[simp] theorem accept_pend (cmd : Instr) (s : State) : (accept cmd s).pend = some { cmd := cmd, data := s.dataIn, iter := s.iter } := rfl
@[simp] theorem accept_dataIn (cmd : Instr) (s : State) : (accept cmd s).dataIn = s.dataIn := rfl
@[simp] theorem accept_iter (cmd : Instr) (s : State) : (accept cmd s).iter = s.iter := rfl
@[simp] theorem accept_tr (cmd : Instr) (s : State) : (accept cmd s).tr = s.tr := rfl
@[simp] theorem accept_sched (cmd : Instr) (s : State) : (accept cmd s).sched = s.sched := rfl
@[simp] theorem accept_prog (cmd : Instr) (s : State) : (accept cmd s).prog = s.prog := rfl
@[simp] theorem accept_log (cmd : Instr) (s : State) : (accept cmd s).log = s.log := rfl
@[simp] theorem accept_draws (cmd : Instr) (s : State) : (accept cmd s).draws = s.draws := rfl
@[simp] theorem accept_handlers (cmd : Instr) (s : State) : (accept cmd s).handlers = s.handlers := rfl
@[simp] theorem accept_unmet (cmd : Instr) (s : State) : (accept cmd s).unmet = s.unmet := rfl

/-! ### finishStep -/

@[simp] theorem finishStep_h (s : State) : (finishStep s).h = s.h := rfl
@[simp] theorem finishStep_buf (s : State) : (finishStep s).buf = s.buf := rfl
@[simp] theorem finishStep_cur (s : State) : (finishStep s).cur = s.cur := rfl
@[simp] theorem finishStep_len (s : State) : (finishStep s).len = s.len := rfl
@[simp] theorem finishStep_dig (s : State) : (finishStep s).dig = s.dig := rfl
@[simp] theorem finishStep_phase (s : State) : (finishStep s).phase = s.phase := rfl
@[simp] theorem finishStep_err (s : State) : (finishStep s).err = s.err := rfl
@[simp] theorem finishStep_cause (s : State) : (finishStep s).cause = s.cause := rfl
@[simp] theorem finishStep_pend (s : State) : (finishStep s).pend = none := rfl
@[simp] theorem finishStep_dataIn (s : State) : (finishStep s).dataIn = s.dataIn := rfl
@[simp] theorem finishStep_iter (s : State) : (finishStep s).iter = s.iter := rfl
@[simp] theorem finishStep_tr (s : State) : (finishStep s).tr = s.tr := rfl
@[simp] theorem finishStep_sched (s : State) : (finishStep s).sched = s.sched := rfl
@[simp] theorem finishStep_prog (s : State) : (finishStep s).prog = s.prog := rfl
@[simp] theorem finishStep_log (s : State) : (finishStep s).log = s.log := rfl
@[simp] theorem finishStep_draws (s : State) : (finishStep s).draws = s.draws := rfl
@[simp] theorem finishStep_handlers (s : State) : (finishStep s).handlers = s.handlers := rfl
@[simp] theorem finishStep_unmet (s : State) : (finishStep s).unmet = s.unmet := rfl

/-! ### putByte -/

@[simp] theorem putByte_h (b : Byte) (s : State) : (putByte b s).h = s.h := rfl
@[simp] theorem putByte_buf (b : Byte) (s : State) : (putByte b s).buf = s.buf.setIfInBounds s.cur.toNat b := rfl
@[simp] theorem putByte_cur (b : Byte) (s : State) : (putByte b s).cur = s.cur + 1 := rfl
@[simp] theorem putByte_len (b : Byte) (s : State) : (putByte b s).len = s.len := rfl
@[simp] theorem putByte_dig (b : Byte) (s : State) : (putByte b s).dig = s.dig := rfl
@[simp] theorem putByte_phase (b : Byte) (s : State) : (putByte b s).phase = s.phase := rfl
@[simp] theorem putByte_err (b : Byte) (s : State) : (putByte b s).err = s.err := rfl
@[simp] theorem putByte_cause (b : Byte) (s : State) : (putByte b s).cause = s.cause := rfl
@[simp] theorem putByte_pend (b : Byte) (s : State) : (putByte b s).pend = s.pend := rfl
@[simp] theorem putByte_dataIn (b : Byte) (s : State) : (putByte b s).dataIn = s.dataIn := rfl
@[simp] theorem putByte_iter (b : Byte) (s : State) : (putByte b s).iter = s.iter := rfl
@[simp] theorem putByte_tr (b : Byte) (s : State) : (putByte b s).tr = s.tr := rfl
@[simp] theorem putByte_sched (b : Byte) (s : State) : (putByte b s).sched = s.sched := rfl
@[simp] theorem putByte_prog (b : Byte) (s : State) : (putByte b s).prog = s.prog := rfl
@[simp] theorem putByte_log (b : Byte) (s : State) : (putByte b s).log = s.log := rfl
@[simp] theorem putByte_draws (b : Byte) (s : State) : (putByte b s).draws = s.draws := rfl
@[simp] theorem putByte_handlers (b : Byte) (s : State) : (putByte b s).handlers = s.handlers := rfl
@[simp] theorem putByte_unmet (b : Byte) (s : State) : (putByte b s).unmet = s.unmet := rfl

/-! ### scrubTransients -/

@[simp] theorem scrubTransients_h (s : State) : (scrubTransients s).h = s.h := rfl
@[simp] theorem scrubTransients_buf (s : State) : (scrubTransients s).buf = s.buf := rfl
@[simp] theorem scrubTransients_cur (s : State) : (scrubTransients s).cur = s.cur := rfl
@[simp] theorem scrubTransients_len (s : State) : (scrubTransients s).len = s.len := rfl
@[simp] theorem scrubTransients_dig (s : State) : (scrubTransients s).dig = s.dig := rfl
@[simp] theorem scrubTransients_phase (s : State) : (scrubTransients s).phase = s.phase := rfl
@[simp] theorem scrubTransients_err (s : State) : (scrubTransients s).err = s.err := rfl
@[simp] theorem scrubTransients_cause (s : State) : (scrubTransients s).cause = s.cause := rfl
@[simp] theorem scrubTransients_pend (s : State) : (scrubTransients s).pend = s.pend := rfl
@[simp] theorem scrubTransients_dataIn (s : State) : (scrubTransients s).dataIn = s.dataIn := rfl
@[simp] theorem scrubTransients_iter (s : State) : (scrubTransients s).iter = s.iter := rfl
@[simp] theorem scrubTransients_tr (s : State) : (scrubTransients s).tr = .zero := rfl
@[simp] theorem scrubTransients_sched (s : State) : (scrubTransients s).sched = s.sched := rfl
@[simp] theorem scrubTransients_prog (s : State) : (scrubTransients s).prog = s.prog := rfl
@[simp] theorem scrubTransients_log (s : State) : (scrubTransients s).log = s.log := rfl
@[simp] theorem scrubTransients_draws (s : State) : (scrubTransients s).draws = s.draws := rfl
@[simp] theorem scrubTransients_handlers (s : State) : (scrubTransients s).handlers = s.handlers := rfl
@[simp] theorem scrubTransients_unmet (s : State) : (scrubTransients s).unmet = s.unmet := rfl

/-! ### compress -/

@[simp] theorem compress_buf (s : State) : (compress s).buf = s.buf := rfl
@[simp] theorem compress_cur (s : State) : (compress s).cur = s.cur := rfl
@[simp] theorem compress_len (s : State) : (compress s).len = s.len := rfl
@[simp] theorem compress_dig (s : State) : (compress s).dig = s.dig := rfl
@[simp] theorem compress_phase (s : State) : (compress s).phase = s.phase := rfl
@[simp] theorem compress_err (s : State) : (compress s).err = s.err := rfl
@[simp] theorem compress_cause (s : State) : (compress s).cause = s.cause := rfl
@[simp] theorem compress_pend (s : State) : (compress s).pend = s.pend := rfl
@[simp] theorem compress_dataIn (s : State) : (compress s).dataIn = s.dataIn := rfl
@[simp] theorem compress_iter (s : State) : (compress s).iter = s.iter := rfl
@[simp] theorem compress_sched (s : State) : (compress s).sched = s.sched := rfl
@[simp] theorem compress_prog (s : State) : (compress s).prog = s.prog := rfl
@[simp] theorem compress_log (s : State) : (compress s).log = s.log := rfl
@[simp] theorem compress_draws (s : State) : (compress s).draws = s.draws := rfl
@[simp] theorem compress_handlers (s : State) : (compress s).handlers = s.handlers := rfl
@[simp] theorem compress_unmet (s : State) : (compress s).unmet = s.unmet := rfl

/-! ### compressBlock -/

@[simp] theorem compressBlock_h (s : State) : (compressBlock s).h = (compress s).h := rfl
@[simp] theorem compressBlock_buf (s : State) : (compressBlock s).buf = s.buf := rfl
@[simp] theorem compressBlock_cur (s : State) : (compressBlock s).cur = 0 := rfl
@[simp] theorem compressBlock_len (s : State) : (compressBlock s).len = s.len := rfl
@[simp] theorem compressBlock_dig (s : State) : (compressBlock s).dig = s.dig := rfl
@[simp] theorem compressBlock_phase (s : State) : (compressBlock s).phase = s.phase := rfl
@[simp] theorem compressBlock_err (s : State) : (compressBlock s).err = s.err := rfl
@[simp] theorem compressBlock_cause (s : State) : (compressBlock s).cause = s.cause := rfl
@[simp] theorem compressBlock_pend (s : State) : (compressBlock s).pend = s.pend := rfl
@[simp] theorem compressBlock_dataIn (s : State) : (compressBlock s).dataIn = s.dataIn := rfl
@[simp] theorem compressBlock_iter (s : State) : (compressBlock s).iter = s.iter := rfl
@[simp] theorem compressBlock_tr (s : State) : (compressBlock s).tr = (compress s).tr := rfl
@[simp] theorem compressBlock_sched (s : State) : (compressBlock s).sched = s.sched := rfl
@[simp] theorem compressBlock_prog (s : State) : (compressBlock s).prog = s.prog := rfl
@[simp] theorem compressBlock_log (s : State) : (compressBlock s).log = s.log := rfl
@[simp] theorem compressBlock_draws (s : State) : (compressBlock s).draws = s.draws := rfl
@[simp] theorem compressBlock_handlers (s : State) : (compressBlock s).handlers = s.handlers := rfl
@[simp] theorem compressBlock_unmet (s : State) : (compressBlock s).unmet = s.unmet := rfl

/-! ### writeLength -/

@[simp] theorem writeLength_h (s : State) : (writeLength s).h = s.h := rfl
@[simp] theorem writeLength_buf (s : State) : (writeLength s).buf = lengthInto s.len s.buf := rfl
@[simp] theorem writeLength_cur (s : State) : (writeLength s).cur = s.cur := rfl
@[simp] theorem writeLength_len (s : State) : (writeLength s).len = s.len := rfl
@[simp] theorem writeLength_dig (s : State) : (writeLength s).dig = s.dig := rfl
@[simp] theorem writeLength_phase (s : State) : (writeLength s).phase = s.phase := rfl
@[simp] theorem writeLength_err (s : State) : (writeLength s).err = s.err := rfl
@[simp] theorem writeLength_cause (s : State) : (writeLength s).cause = s.cause := rfl
@[simp] theorem writeLength_pend (s : State) : (writeLength s).pend = s.pend := rfl
@[simp] theorem writeLength_dataIn (s : State) : (writeLength s).dataIn = s.dataIn := rfl
@[simp] theorem writeLength_iter (s : State) : (writeLength s).iter = s.iter := rfl
@[simp] theorem writeLength_tr (s : State) : (writeLength s).tr = s.tr := rfl
@[simp] theorem writeLength_sched (s : State) : (writeLength s).sched = s.sched := rfl
@[simp] theorem writeLength_prog (s : State) : (writeLength s).prog = s.prog := rfl
@[simp] theorem writeLength_log (s : State) : (writeLength s).log = s.log := rfl
@[simp] theorem writeLength_draws (s : State) : (writeLength s).draws = s.draws := rfl
@[simp] theorem writeLength_handlers (s : State) : (writeLength s).handlers = s.handlers := rfl
@[simp] theorem writeLength_unmet (s : State) : (writeLength s).unmet = s.unmet := rfl

/-! ### latchDigest -/

@[simp] theorem latchDigest_h (s : State) : (latchDigest s).h = s.h := rfl
@[simp] theorem latchDigest_buf (s : State) : (latchDigest s).buf = s.buf := rfl
@[simp] theorem latchDigest_cur (s : State) : (latchDigest s).cur = s.cur := rfl
@[simp] theorem latchDigest_len (s : State) : (latchDigest s).len = s.len := rfl
@[simp] theorem latchDigest_dig (s : State) : (latchDigest s).dig = s.h := rfl
@[simp] theorem latchDigest_phase (s : State) : (latchDigest s).phase = s.phase := rfl
@[simp] theorem latchDigest_err (s : State) : (latchDigest s).err = s.err := rfl
@[simp] theorem latchDigest_cause (s : State) : (latchDigest s).cause = s.cause := rfl
@[simp] theorem latchDigest_pend (s : State) : (latchDigest s).pend = s.pend := rfl
@[simp] theorem latchDigest_dataIn (s : State) : (latchDigest s).dataIn = s.dataIn := rfl
@[simp] theorem latchDigest_iter (s : State) : (latchDigest s).iter = s.iter := rfl
@[simp] theorem latchDigest_tr (s : State) : (latchDigest s).tr = s.tr := rfl
@[simp] theorem latchDigest_sched (s : State) : (latchDigest s).sched = s.sched := rfl
@[simp] theorem latchDigest_prog (s : State) : (latchDigest s).prog = s.prog := rfl
@[simp] theorem latchDigest_log (s : State) : (latchDigest s).log = s.log := rfl
@[simp] theorem latchDigest_draws (s : State) : (latchDigest s).draws = s.draws := rfl
@[simp] theorem latchDigest_handlers (s : State) : (latchDigest s).handlers = s.handlers := rfl
@[simp] theorem latchDigest_unmet (s : State) : (latchDigest s).unmet = s.unmet := rfl

/-! ### scrubEngine -/

@[simp] theorem scrubEngine_h (s : State) : (scrubEngine s).h = Vector.replicate 8 0 := rfl
@[simp] theorem scrubEngine_buf (s : State) : (scrubEngine s).buf = Vector.replicate 64 0 := rfl
@[simp] theorem scrubEngine_cur (s : State) : (scrubEngine s).cur = 0 := rfl
@[simp] theorem scrubEngine_len (s : State) : (scrubEngine s).len = s.len := rfl
@[simp] theorem scrubEngine_dig (s : State) : (scrubEngine s).dig = s.dig := rfl
@[simp] theorem scrubEngine_phase (s : State) : (scrubEngine s).phase = s.phase := rfl
@[simp] theorem scrubEngine_err (s : State) : (scrubEngine s).err = s.err := rfl
@[simp] theorem scrubEngine_cause (s : State) : (scrubEngine s).cause = s.cause := rfl
@[simp] theorem scrubEngine_pend (s : State) : (scrubEngine s).pend = s.pend := rfl
@[simp] theorem scrubEngine_dataIn (s : State) : (scrubEngine s).dataIn = 0 := rfl
@[simp] theorem scrubEngine_iter (s : State) : (scrubEngine s).iter = s.iter := rfl
@[simp] theorem scrubEngine_tr (s : State) : (scrubEngine s).tr = .zero := rfl
@[simp] theorem scrubEngine_sched (s : State) : (scrubEngine s).sched = s.sched := rfl
@[simp] theorem scrubEngine_prog (s : State) : (scrubEngine s).prog = s.prog := rfl
@[simp] theorem scrubEngine_log (s : State) : (scrubEngine s).log = s.log := rfl
@[simp] theorem scrubEngine_draws (s : State) : (scrubEngine s).draws = s.draws := rfl
@[simp] theorem scrubEngine_handlers (s : State) : (scrubEngine s).handlers = s.handlers := rfl
@[simp] theorem scrubEngine_unmet (s : State) : (scrubEngine s).unmet = s.unmet := rfl

/-! ### setPhase -/

@[simp] theorem setPhase_h (p : Phase) (s : State) : (setPhase p s).h = s.h := rfl
@[simp] theorem setPhase_buf (p : Phase) (s : State) : (setPhase p s).buf = s.buf := rfl
@[simp] theorem setPhase_cur (p : Phase) (s : State) : (setPhase p s).cur = s.cur := rfl
@[simp] theorem setPhase_len (p : Phase) (s : State) : (setPhase p s).len = s.len := rfl
@[simp] theorem setPhase_dig (p : Phase) (s : State) : (setPhase p s).dig = s.dig := rfl
@[simp] theorem setPhase_phase (p : Phase) (s : State) : (setPhase p s).phase = p := rfl
@[simp] theorem setPhase_err (p : Phase) (s : State) : (setPhase p s).err = s.err := rfl
@[simp] theorem setPhase_cause (p : Phase) (s : State) : (setPhase p s).cause = s.cause := rfl
@[simp] theorem setPhase_pend (p : Phase) (s : State) : (setPhase p s).pend = s.pend := rfl
@[simp] theorem setPhase_dataIn (p : Phase) (s : State) : (setPhase p s).dataIn = s.dataIn := rfl
@[simp] theorem setPhase_iter (p : Phase) (s : State) : (setPhase p s).iter = s.iter := rfl
@[simp] theorem setPhase_tr (p : Phase) (s : State) : (setPhase p s).tr = s.tr := rfl
@[simp] theorem setPhase_sched (p : Phase) (s : State) : (setPhase p s).sched = s.sched := rfl
@[simp] theorem setPhase_prog (p : Phase) (s : State) : (setPhase p s).prog = s.prog := rfl
@[simp] theorem setPhase_log (p : Phase) (s : State) : (setPhase p s).log = s.log := rfl
@[simp] theorem setPhase_draws (p : Phase) (s : State) : (setPhase p s).draws = s.draws := rfl
@[simp] theorem setPhase_handlers (p : Phase) (s : State) : (setPhase p s).handlers = s.handlers := rfl
@[simp] theorem setPhase_unmet (p : Phase) (s : State) : (setPhase p s).unmet = s.unmet := rfl

/-! ### hwReset -/

@[simp] theorem hwReset_h (s : State) : (hwReset s).h = Vector.replicate 8 0 := rfl
@[simp] theorem hwReset_buf (s : State) : (hwReset s).buf = Vector.replicate 64 0 := rfl
@[simp] theorem hwReset_cur (s : State) : (hwReset s).cur = 0 := rfl
@[simp] theorem hwReset_len (s : State) : (hwReset s).len = 0 := rfl
@[simp] theorem hwReset_dig (s : State) : (hwReset s).dig = Vector.replicate 8 0 := rfl
@[simp] theorem hwReset_phase (s : State) : (hwReset s).phase = .idle := rfl
@[simp] theorem hwReset_err (s : State) : (hwReset s).err = false := rfl
@[simp] theorem hwReset_cause (s : State) : (hwReset s).cause = .none := rfl
@[simp] theorem hwReset_pend (s : State) : (hwReset s).pend = none := rfl
@[simp] theorem hwReset_dataIn (s : State) : (hwReset s).dataIn = 0 := rfl
@[simp] theorem hwReset_iter (s : State) : (hwReset s).iter = 0 := rfl
@[simp] theorem hwReset_tr (s : State) : (hwReset s).tr = .zero := rfl
@[simp] theorem hwReset_sched (s : State) : (hwReset s).sched = s.sched := rfl
@[simp] theorem hwReset_prog (s : State) : (hwReset s).prog = s.prog := rfl
@[simp] theorem hwReset_log (s : State) : (hwReset s).log = s.log := rfl
@[simp] theorem hwReset_draws (s : State) : (hwReset s).draws = s.draws := rfl
@[simp] theorem hwReset_handlers (s : State) : (hwReset s).handlers = s.handlers := rfl
@[simp] theorem hwReset_unmet (s : State) : (hwReset s).unmet = s.unmet := rfl

/-! ### countDown -/

@[simp] theorem countDown_h (s : State) : (countDown s).h = s.h := rfl
@[simp] theorem countDown_buf (s : State) : (countDown s).buf = s.buf := rfl
@[simp] theorem countDown_cur (s : State) : (countDown s).cur = s.cur := rfl
@[simp] theorem countDown_len (s : State) : (countDown s).len = s.len := rfl
@[simp] theorem countDown_dig (s : State) : (countDown s).dig = s.dig := rfl
@[simp] theorem countDown_phase (s : State) : (countDown s).phase = s.phase := rfl
@[simp] theorem countDown_err (s : State) : (countDown s).err = s.err := rfl
@[simp] theorem countDown_cause (s : State) : (countDown s).cause = s.cause := rfl
@[simp] theorem countDown_pend (s : State) : (countDown s).pend = s.pend := rfl
@[simp] theorem countDown_dataIn (s : State) : (countDown s).dataIn = s.dataIn := rfl
@[simp] theorem countDown_iter (s : State) : (countDown s).iter = s.iter := rfl
@[simp] theorem countDown_tr (s : State) : (countDown s).tr = { s.tr with rem := s.tr.rem - 1 } := rfl
@[simp] theorem countDown_sched (s : State) : (countDown s).sched = s.sched := rfl
@[simp] theorem countDown_prog (s : State) : (countDown s).prog = s.prog := rfl
@[simp] theorem countDown_log (s : State) : (countDown s).log = s.log := rfl
@[simp] theorem countDown_draws (s : State) : (countDown s).draws = s.draws := rfl
@[simp] theorem countDown_handlers (s : State) : (countDown s).handlers = s.handlers := rfl
@[simp] theorem countDown_unmet (s : State) : (countDown s).unmet = s.unmet := rfl

/-! ### complete -/

@[simp] theorem complete_h (r : BusResponse) (rest : List HostOp) (s : State) : (complete r rest s).h = s.h := rfl
@[simp] theorem complete_buf (r : BusResponse) (rest : List HostOp) (s : State) : (complete r rest s).buf = s.buf := rfl
@[simp] theorem complete_cur (r : BusResponse) (rest : List HostOp) (s : State) : (complete r rest s).cur = s.cur := rfl
@[simp] theorem complete_len (r : BusResponse) (rest : List HostOp) (s : State) : (complete r rest s).len = s.len := rfl
@[simp] theorem complete_dig (r : BusResponse) (rest : List HostOp) (s : State) : (complete r rest s).dig = s.dig := rfl
@[simp] theorem complete_phase (r : BusResponse) (rest : List HostOp) (s : State) : (complete r rest s).phase = s.phase := rfl
@[simp] theorem complete_err (r : BusResponse) (rest : List HostOp) (s : State) : (complete r rest s).err = s.err := rfl
@[simp] theorem complete_cause (r : BusResponse) (rest : List HostOp) (s : State) : (complete r rest s).cause = s.cause := rfl
@[simp] theorem complete_pend (r : BusResponse) (rest : List HostOp) (s : State) : (complete r rest s).pend = s.pend := rfl
@[simp] theorem complete_dataIn (r : BusResponse) (rest : List HostOp) (s : State) : (complete r rest s).dataIn = s.dataIn := rfl
@[simp] theorem complete_iter (r : BusResponse) (rest : List HostOp) (s : State) : (complete r rest s).iter = s.iter := rfl
@[simp] theorem complete_tr (r : BusResponse) (rest : List HostOp) (s : State) : (complete r rest s).tr = s.tr := rfl
@[simp] theorem complete_sched (r : BusResponse) (rest : List HostOp) (s : State) : (complete r rest s).sched = s.sched := rfl
@[simp] theorem complete_prog (r : BusResponse) (rest : List HostOp) (s : State) :
    (complete r rest s).prog = if trapsHost r then s.handlers.headD [] else rest := rfl
@[simp] theorem complete_log (r : BusResponse) (rest : List HostOp) (s : State) : (complete r rest s).log = r :: s.log := rfl
@[simp] theorem complete_draws (r : BusResponse) (rest : List HostOp) (s : State) : (complete r rest s).draws = s.draws := rfl
@[simp] theorem complete_handlers (r : BusResponse) (rest : List HostOp) (s : State) :
    (complete r rest s).handlers = if trapsHost r then s.handlers.tail else s.handlers := rfl
@[simp] theorem complete_unmet (r : BusResponse) (rest : List HostOp) (s : State) : (complete r rest s).unmet = s.unmet := rfl

/-! ### advance -/

@[simp] theorem advance_h (s : State) : (advance s).h = s.h := rfl
@[simp] theorem advance_buf (s : State) : (advance s).buf = s.buf := rfl
@[simp] theorem advance_cur (s : State) : (advance s).cur = s.cur := rfl
@[simp] theorem advance_len (s : State) : (advance s).len = s.len := rfl
@[simp] theorem advance_dig (s : State) : (advance s).dig = s.dig := rfl
@[simp] theorem advance_phase (s : State) : (advance s).phase = s.phase := rfl
@[simp] theorem advance_err (s : State) : (advance s).err = s.err := rfl
@[simp] theorem advance_cause (s : State) : (advance s).cause = s.cause := rfl
@[simp] theorem advance_pend (s : State) : (advance s).pend = s.pend := rfl
@[simp] theorem advance_dataIn (s : State) : (advance s).dataIn = s.dataIn := rfl
@[simp] theorem advance_iter (s : State) : (advance s).iter = s.iter := rfl
@[simp] theorem advance_tr (s : State) : (advance s).tr = s.tr := rfl
@[simp] theorem advance_sched (s : State) : (advance s).sched = s.sched.tail := rfl
@[simp] theorem advance_prog (s : State) : (advance s).prog = s.prog := rfl
@[simp] theorem advance_log (s : State) : (advance s).log = s.log := rfl
@[simp] theorem advance_draws (s : State) : (advance s).draws = s.draws := rfl
@[simp] theorem advance_handlers (s : State) : (advance s).handlers = s.handlers := rfl
@[simp] theorem advance_unmet (s : State) : (advance s).unmet = s.unmet := rfl

/-! ### withCommandWord -/

@[simp] theorem withCommandWord_h (v : Word) (s : State) : (withCommandWord v s).h = s.h := rfl
@[simp] theorem withCommandWord_buf (v : Word) (s : State) : (withCommandWord v s).buf = s.buf := rfl
@[simp] theorem withCommandWord_cur (v : Word) (s : State) : (withCommandWord v s).cur = s.cur := rfl
@[simp] theorem withCommandWord_len (v : Word) (s : State) : (withCommandWord v s).len = s.len := rfl
@[simp] theorem withCommandWord_dig (v : Word) (s : State) : (withCommandWord v s).dig = s.dig := rfl
@[simp] theorem withCommandWord_phase (v : Word) (s : State) : (withCommandWord v s).phase = s.phase := rfl
@[simp] theorem withCommandWord_err (v : Word) (s : State) : (withCommandWord v s).err = s.err := rfl
@[simp] theorem withCommandWord_cause (v : Word) (s : State) : (withCommandWord v s).cause = s.cause := rfl
@[simp] theorem withCommandWord_pend (v : Word) (s : State) : (withCommandWord v s).pend = s.pend := rfl
@[simp] theorem withCommandWord_dataIn (v : Word) (s : State) : (withCommandWord v s).dataIn = s.dataIn := rfl
@[simp] theorem withCommandWord_iter (v : Word) (s : State) : (withCommandWord v s).iter = s.iter := rfl
@[simp] theorem withCommandWord_tr (v : Word) (s : State) : (withCommandWord v s).tr = s.tr := rfl
@[simp] theorem withCommandWord_sched (v : Word) (s : State) : (withCommandWord v s).sched = .host :: s.sched := rfl
@[simp] theorem withCommandWord_prog (v : Word) (s : State) : (withCommandWord v s).prog = .write 0x00 .four v :: s.prog := rfl
@[simp] theorem withCommandWord_log (v : Word) (s : State) : (withCommandWord v s).log = s.log := rfl
@[simp] theorem withCommandWord_draws (v : Word) (s : State) : (withCommandWord v s).draws = s.draws := rfl
@[simp] theorem withCommandWord_handlers (v : Word) (s : State) : (withCommandWord v s).handlers = s.handlers := rfl
@[simp] theorem withCommandWord_unmet (v : Word) (s : State) : (withCommandWord v s).unmet = s.unmet := rfl

/-! ### A response without an error never traps the host -/

@[simp] theorem trapsHost_ok (v : Option Word) : trapsHost { value := v, error := false } = false := rfl
@[simp] theorem trapsHost_statusResponse (s : State) : trapsHost (statusResponse s) = false := rfl

/-! ### raiseError: only ERR and CAUSE can change (R203) -/

@[simp] theorem raiseError_h (c : Cause) (s : State) : (raiseError c s).h = s.h := by unfold raiseError; split <;> rfl
@[simp] theorem raiseError_buf (c : Cause) (s : State) : (raiseError c s).buf = s.buf := by unfold raiseError; split <;> rfl
@[simp] theorem raiseError_cur (c : Cause) (s : State) : (raiseError c s).cur = s.cur := by unfold raiseError; split <;> rfl
@[simp] theorem raiseError_len (c : Cause) (s : State) : (raiseError c s).len = s.len := by unfold raiseError; split <;> rfl
@[simp] theorem raiseError_dig (c : Cause) (s : State) : (raiseError c s).dig = s.dig := by unfold raiseError; split <;> rfl
@[simp] theorem raiseError_phase (c : Cause) (s : State) : (raiseError c s).phase = s.phase := by unfold raiseError; split <;> rfl
@[simp] theorem raiseError_pend (c : Cause) (s : State) : (raiseError c s).pend = s.pend := by unfold raiseError; split <;> rfl
@[simp] theorem raiseError_dataIn (c : Cause) (s : State) : (raiseError c s).dataIn = s.dataIn := by unfold raiseError; split <;> rfl
@[simp] theorem raiseError_iter (c : Cause) (s : State) : (raiseError c s).iter = s.iter := by unfold raiseError; split <;> rfl
@[simp] theorem raiseError_tr (c : Cause) (s : State) : (raiseError c s).tr = s.tr := by unfold raiseError; split <;> rfl
@[simp] theorem raiseError_sched (c : Cause) (s : State) : (raiseError c s).sched = s.sched := by unfold raiseError; split <;> rfl
@[simp] theorem raiseError_prog (c : Cause) (s : State) : (raiseError c s).prog = s.prog := by unfold raiseError; split <;> rfl
@[simp] theorem raiseError_log (c : Cause) (s : State) : (raiseError c s).log = s.log := by unfold raiseError; split <;> rfl
@[simp] theorem raiseError_draws (c : Cause) (s : State) : (raiseError c s).draws = s.draws := by unfold raiseError; split <;> rfl
@[simp] theorem raiseError_handlers (c : Cause) (s : State) : (raiseError c s).handlers = s.handlers := by unfold raiseError; split <;> rfl
@[simp] theorem raiseError_unmet (c : Cause) (s : State) : (raiseError c s).unmet = s.unmet := by unfold raiseError; split <;> rfl

@[simp] theorem raiseError_err (c : Cause) (s : State) : (raiseError c s).err = true := by
  unfold raiseError; split <;> simp_all

@[simp] theorem raiseError_cause (c : Cause) (s : State) :
    (raiseError c s).cause = if s.err then s.cause else c := by
  unfold raiseError; split <;> rfl

end Sys2Proof.Machine
end

