-- ==== Sys2Proof/Laws/Compression.lean ====
section
/-! SUPPORT. The compression function: the hash state COMPRESS leaves does not depend on what t, t1, t2 and REM held, and COMPRESS writes nothing but H and the transients (R140, R141). -/

namespace Sys2Proof.Machine

/-- The transients that COMPRESS reads: W and a..h; the others put to 0. -/
def Transients.working (x : Transients) : Transients := { x with t := 0, t1 := 0, t2 := 0, rem := 0 }

theorem addWorking_working (h : Vector Word 8) (x : Transients) : addWorking h x.working = addWorking h x := rfl

theorem loadWorking_working (h : Vector Word 8) (block : Vector Byte 64) (x y : Transients) :
    (loadWorking h block x).working = (loadWorking h block y).working := rfl

theorem round_working (x y : Transients) (t : Nat) (hxy : x.working = y.working) :
    (round x t).working = (round y t).working := by
  simp only [Transients.working, Transients.mk.injEq] at hxy
  obtain ⟨hw, ha, hb, hc, hd, he, hf, hg, hh, -⟩ := hxy
  simp [round, Transients.working, hw, ha, hb, hc, hd, he, hf, hg, hh]

theorem foldl_round_working (ts : List Nat) (x y : Transients) (hxy : x.working = y.working) :
    (ts.foldl round x).working = (ts.foldl round y).working := by
  induction ts generalizing x y with
  | nil => exact hxy
  | cons t ts ih => exact ih _ _ (round_working x y t hxy)

/-- The rounds do not touch REM. -/
theorem foldl_round_rem (ts : List Nat) (x : Transients) : (ts.foldl round x).rem = x.rem := by
  induction ts generalizing x with
  | nil => rfl
  | cons t ts ih => rw [List.foldl_cons, ih]; rfl

theorem runRounds_working (x y : Transients) (hxy : x.working = y.working) :
    (runRounds x).working = (runRounds y).working := by
  unfold runRounds
  exact foldl_round_working _ x y hxy

theorem addWorking_runRounds (h : Vector Word 8) (block : Vector Byte 64) (x : Transients) :
    addWorking h (runRounds (loadWorking h block x)) = compressWords h block := by
  unfold compressWords
  rw [← addWorking_working, runRounds_working _ _ (loadWorking_working h block x .zero), addWorking_working]

@[simp] theorem compress_h (s : State) : (compress s).h = compressWords s.h s.buf :=
  addWorking_runRounds s.h s.buf s.tr

theorem compress_tr (s : State) : (compress s).tr = runRounds (loadWorking s.h s.buf s.tr) := rfl

@[simp] theorem compress_tr_rem (s : State) : (compress s).tr.rem = s.tr.rem := by
  rw [compress_tr, runRounds, foldl_round_rem, loadWorking]

/-- All that COMPRESS can do (R140). -/
theorem compress_eq (s : State) :
    compress s = { s with h := compressWords s.h s.buf, tr := (compress s).tr } := by
  rw [← compress_h]; rfl

end Sys2Proof.Machine
end

