-- ==== Sys2Proof/Laws/Buffer.lean ====
section
/-! SUPPORT. The message buffer: what putByte, zeroFill, the length field, ABSORB and PAD_AND_COMPRESS do, each said once (R104, R107, R108). -/

namespace Sys2Proof.Machine

theorem cur_add_ofNat (c : BitVec 7) (n : Nat) : c + BitVec.ofNat 7 n = BitVec.ofNat 7 (c.toNat + n) := by
  apply BitVec.eq_of_toNat_eq; simp

theorem written_getElem (buf : Vector Byte 64) (pos : Nat) (bs : List Byte) (i : Nat) (hi : i < 64) :
    (written buf pos bs)[i] = if pos ≤ i ∧ i < pos + bs.length then bs.getD (i - pos) 0 else buf[i] := by
  simp [written]

theorem written_nil (buf : Vector Byte 64) (pos : Nat) : written buf pos [] = buf := by
  apply Vector.ext; intro i hi; simp [written]

theorem written_cons (buf : Vector Byte 64) (pos : Nat) (b : Byte) (bs : List Byte) :
    written (buf.setIfInBounds pos b) (pos + 1) bs = written buf pos (b :: bs) := by
  apply Vector.ext; intro i hi
  simp only [written_getElem, List.length_cons, Vector.getElem_setIfInBounds]
  by_cases h1 : pos = i
  · subst h1; simp
  · by_cases h2 : pos + 1 ≤ i ∧ i < pos + 1 + bs.length
    · have h3 : pos ≤ i ∧ i < pos + (bs.length + 1) := by omega
      have h4 : i - pos = (i - (pos + 1)) + 1 := by omega
      rw [if_pos h2, if_pos h3, h4, List.getD_cons_succ]
    · have h3 : ¬(pos ≤ i ∧ i < pos + (bs.length + 1)) := by omega
      rw [if_neg h2, if_neg h3, if_neg h1]

/-- Writing a buffer's worth in one go or up to its end only is the same. -/
theorem written_take (buf : Vector Byte 64) (pos : Nat) (bs : List Byte) :
    written buf pos (bs.take (64 - pos)) = written buf pos bs := by
  apply Vector.ext; intro i hi
  simp only [written_getElem, List.length_take]
  by_cases h : pos ≤ i ∧ i < pos + bs.length
  · have h2 : pos ≤ i ∧ i < pos + min (64 - pos) bs.length := by omega
    rw [if_pos h, if_pos h2]
    simp only [List.getD_eq_getElem?_getD, List.getElem?_take]
    rw [if_pos (by omega)]
  · have h2 : ¬(pos ≤ i ∧ i < pos + min (64 - pos) bs.length) := by omega
    rw [if_neg h, if_neg h2]

/-- All that zeroFill can do, while it stays inside the buffer. -/
theorem zeroFill_eq (n : Nat) (s : State) (hn : s.cur.toNat + n ≤ 64) :
    zeroFill n s =
      { s with buf := written s.buf s.cur.toNat (List.replicate n 0), cur := BitVec.ofNat 7 (s.cur.toNat + n) } := by
  induction n generalizing s with
  | zero => simp [zeroFill, written_nil]
  | succ n ih =>
    have hc : (putByte 0 s).cur.toNat = s.cur.toNat + 1 := by simp; omega
    rw [zeroFill, ih _ (by omega), hc, List.replicate_succ, ← written_cons]
    simp [putByte, Nat.add_assoc, Nat.add_comm 1 n]

theorem lengthInto_fold (len : BitVec 64) (buf : Vector Byte 64) (n : Nat) (i : Nat) (hi : i < 64) :
    ((List.range n).foldl (fun b k => b.setIfInBounds (56 + k) (longByte len k)) buf)[i] =
      if 56 ≤ i ∧ i < 56 + n then longByte len (i - 56) else buf[i] := by
  induction n with
  | zero => simp
  | succ n ih =>
    rw [List.range_succ, List.foldl_append, List.foldl_cons, List.foldl_nil, Vector.getElem_setIfInBounds, ih]
    by_cases h : 56 + n = i
    · have h2 : 56 ≤ i ∧ i < 56 + (n + 1) := by omega
      have h3 : i - 56 = n := by omega
      rw [if_pos h, if_pos h2, h3]
    · rw [if_neg h]
      by_cases h2 : 56 ≤ i ∧ i < 56 + n
      · rw [if_pos h2, if_pos (by omega)]
      · rw [if_neg h2, if_neg (by omega)]

/-- The length field, byte by byte (R108). -/
theorem lengthInto_getElem (len : BitVec 64) (buf : Vector Byte 64) (i : Nat) (hi : i < 64) :
    (lengthInto len buf)[i] = if 56 ≤ i then longByte len (i - 56) else buf[i] := by
  have hfold := lengthInto_fold len buf 8 i hi
  have hiff : (56 ≤ i ∧ i < 56 + 8) ↔ 56 ≤ i := by omega
  simp only [hiff] at hfold
  unfold lengthInto
  exact hfold

/-- ABSORB, with the test on the cursor (R104). -/
theorem absorb_eq (s : State) (b : Byte) :
    absorb s b = if s.cur + 1 = 64 then scrubTransients (compressBlock (putByte b s)) else putByte b s := rfl

/-- ABSORB when the buffer does not fill (R104). -/
theorem absorb_room (s : State) (b : Byte) (h : s.cur.toNat + 1 < 64) : absorb s b = putByte b s := by
  have hc : (s.cur + 1).toNat = s.cur.toNat + 1 := by
    rw [BitVec.toNat_add]; simp; omega
  have h64 : ¬ s.cur + 1 = 64 := by
    intro h64; rw [h64] at hc; simp at hc; omega
  exact (absorb_eq s b).trans (if_neg h64)

/-- ABSORB of the byte that fills the buffer: one compression, CUR = 0, transients scrubbed (R104, R32). -/
theorem absorb_full (s : State) (b : Byte) (h : s.cur.toNat = 63) :
    absorb s b =
      { s with
        h := compressWords s.h (s.buf.setIfInBounds 63 b), buf := s.buf.setIfInBounds 63 b, cur := 0, tr := .zero } := by
  have h64 : s.cur + 1 = 64 := by
    apply BitVec.eq_of_toNat_eq; rw [BitVec.toNat_add, h]; rfl
  rw [absorb_eq, if_pos h64, compressBlock, compress_eq]
  simp only [scrubTransients, putByte, h]

/-- ABSORB of bytes that do not fill the buffer (R103, R104). -/
theorem absorbAll_room (bs : List Byte) (s : State) (h : s.cur.toNat + bs.length < 64) :
    absorbAll bs s =
      { s with buf := written s.buf s.cur.toNat bs, cur := BitVec.ofNat 7 (s.cur.toNat + bs.length) } := by
  induction bs generalizing s with
  | nil => simp [absorbAll, written_nil]
  | cons b bs ih =>
    simp only [List.length_cons] at h
    have hc : (putByte b s).cur.toNat = s.cur.toNat + 1 := by simp; omega
    have : absorbAll (b :: bs) s = absorbAll bs (putByte b s) := by
      simp only [absorbAll, List.foldl_cons, absorb_room s b (by omega)]
    rw [this, ih _ (by omega), hc, ← written_cons]
    simp [putByte, Nat.add_assoc, Nat.add_comm 1 bs.length]

/-- ABSORB of bytes that just fill the buffer (R104). -/
theorem absorbAll_fill (bs : List Byte) (s : State) (hc : s.cur.toNat < 64) (h : s.cur.toNat + bs.length = 64) :
    absorbAll bs s =
      { s with
        h := compressWords s.h (written s.buf s.cur.toNat bs), buf := written s.buf s.cur.toNat bs, cur := 0,
        tr := .zero } := by
  induction bs generalizing s with
  | nil => simp at h; omega
  | cons b bs ih =>
    simp only [List.length_cons] at h
    by_cases hb : bs = []
    · subst hb
      have h63 : s.cur.toNat = 63 := by simpa using h
      simp only [absorbAll, List.foldl_cons, List.foldl_nil, absorb_full s b h63, h63]
      rw [← written_cons, written_nil]
    · have hl : 0 < bs.length := List.length_pos_iff.mpr hb
      have hc1 : (putByte b s).cur.toNat = s.cur.toNat + 1 := by simp; omega
      have : absorbAll (b :: bs) s = absorbAll bs (putByte b s) := by
        simp only [absorbAll, List.foldl_cons, absorb_room s b (by omega)]
      rw [this, ih _ (by omega) (by omega), hc1, ← written_cons]
      simp [putByte]

theorem absorbAll_append (xs ys : List Byte) (s : State) :
    absorbAll (xs ++ ys) s = absorbAll ys (absorbAll xs s) := by simp [absorbAll]

/-- ABSORB of at most 64 bytes that fill the buffer: one compression, the rest at the start (R104). -/
theorem absorbAll_wrap (bs : List Byte) (s : State) (hc : s.cur.toNat < 64) (h : 64 ≤ s.cur.toNat + bs.length)
    (hl : bs.length < 64) :
    absorbAll bs s =
      { s with
        h := compressWords s.h (written s.buf s.cur.toNat bs)
        buf := written (written s.buf s.cur.toNat bs) 0 (bs.drop (64 - s.cur.toNat))
        cur := BitVec.ofNat 7 (s.cur.toNat + bs.length - 64)
        tr := .zero } := by
  have hsplit : absorbAll bs s = absorbAll (bs.drop (64 - s.cur.toNat)) (absorbAll (bs.take (64 - s.cur.toNat)) s) := by
    rw [← absorbAll_append, List.take_append_drop]
  have htake : s.cur.toNat + (bs.take (64 - s.cur.toNat)).length = 64 := by
    rw [List.length_take]; omega
  rw [hsplit, absorbAll_fill _ s hc htake, written_take, absorbAll_room]
  · simp only [List.length_drop]
    simp
    congr 1; omega
  · simp only [List.length_drop]; simp; omega

end Sys2Proof.Machine
end

