-- ==== Sys2Proof/Laws/Padding.lean ====
section
/-! SUPPORT. Padding and the stretch loop: what PAD_AND_COMPRESS leaves in H (R107 to R109), what the loop leaves in DIG (R162 to R164), and that neither touches anything outside the engine. -/

namespace Sys2Proof.Machine

theorem zeroFill_frame (n : Nat) (s : State) :
    zeroFill n s = { s with buf := (zeroFill n s).buf, cur := (zeroFill n s).cur } := by
  induction n generalizing s with
  | zero => rfl
  | succ n ih => rw [zeroFill, ih]; rfl

theorem padOverflow_frame (s : State) :
    padOverflow s =
      { s with h := (padOverflow s).h, buf := (padOverflow s).buf, cur := (padOverflow s).cur, tr := (padOverflow s).tr } := by
  unfold padOverflow
  split
  · rw [zeroFillTo, zeroFill_frame]; rfl
  · rfl

/-- Everything PAD_AND_COMPRESS can change: H, BUF, CUR (to 0) and the transients. -/
theorem padAndCompress_frame (s : State) :
    padAndCompress s =
      { s with
        h := (padAndCompress s).h, buf := (padAndCompress s).buf, cur := 0, tr := (padAndCompress s).tr } := by
  unfold padAndCompress
  rw [zeroFillTo, zeroFill_frame, padOverflow_frame]
  rfl

theorem written_full (buf : Vector Byte 64) (cur n : Nat) (hn : cur + 1 + n = 64) :
    written (buf.setIfInBounds cur 0x80) (cur + 1) (List.replicate n 0) = fullPadBlock buf cur := by
  apply Vector.ext; intro i hi
  simp only [written_getElem, fullPadBlock, Vector.getElem_ofFn, List.length_replicate, Vector.getElem_setIfInBounds,
    Fin.getElem_fin]
  rcases Nat.lt_trichotomy i cur with h | h | h
  · rw [if_neg (by omega), if_neg (by omega), if_pos h]
  · rw [if_neg (by omega), if_pos h.symm, if_neg (by omega), if_pos h]
  · rw [if_pos (by omega), if_neg (by omega), if_neg (by omega), List.getD_eq_getElem _ _ (by simp; omega), List.getElem_replicate]

theorem lengthInto_written (buf : Vector Byte 64) (len : BitVec 64) (cur n : Nat) (hn : cur + 1 + n = 56) :
    lengthInto len (written (buf.setIfInBounds cur 0x80) (cur + 1) (List.replicate n 0)) = lastBlock buf cur len := by
  apply Vector.ext; intro i hi
  simp only [lengthInto_getElem, written_getElem, lastBlock, Vector.getElem_ofFn, List.length_replicate,
    Vector.getElem_setIfInBounds, Fin.getElem_fin]
  by_cases h56 : 56 ≤ i
  · rw [if_pos h56, if_neg (by omega), if_neg (by omega), if_neg (by omega)]
  · rw [if_neg h56]
    rcases Nat.lt_trichotomy i cur with h | h | h
    · rw [if_neg (by omega), if_neg (by omega), if_pos h]
    · rw [if_neg (by omega), if_pos h.symm, if_neg (by omega), if_pos h]
    · rw [if_pos (by omega), if_neg (by omega), if_neg (by omega), if_pos (by omega),
        List.getD_eq_getElem _ _ (by simp; omega), List.getElem_replicate]

theorem lengthInto_fresh (buf : Vector Byte 64) (len : BitVec 64) :
    lengthInto len (written buf 0 (List.replicate 56 0)) = lengthBlock len := by
  apply Vector.ext; intro i hi
  simp only [lengthInto_getElem, written_getElem, lengthBlock, Vector.getElem_ofFn, List.length_replicate]
  by_cases h56 : 56 ≤ i
  · rw [if_pos h56, if_neg (by omega)]
  · rw [if_neg h56, if_pos (by omega), if_pos (by omega), List.getD_eq_getElem _ _ (by simp; omega), List.getElem_replicate]

/-- What PAD_AND_COMPRESS leaves in H: one compression when CUR ≤ 55, two when 56 ≤ CUR (R107 to R109). -/
theorem padAndCompress_h (s : State) (hc : s.cur.toNat < 64) :
    (padAndCompress s).h = finalDigest s.h s.buf s.cur.toNat s.len := by
  have h1 : (putByte 0x80 s).cur.toNat = s.cur.toNat + 1 := by
    rw [putByte_cur, BitVec.toNat_add]; simp; omega
  unfold padAndCompress finalDigest
  rw [compressBlock_h, compress_h, writeLength_h, writeLength_buf]
  by_cases h55 : s.cur.toNat ≤ 55
  · rw [padOverflow, if_neg (by omega), zeroFillTo, zeroFill_eq _ _ (by omega), if_pos h55]
    simp only [h1, putByte_h, putByte_buf, putByte_len]
    rw [lengthInto_written _ _ _ _ (by omega)]
  · have hfill := zeroFill_eq (64 - (putByte 0x80 s).cur.toNat) (putByte 0x80 s) (by omega)
    rw [padOverflow, if_pos (by omega), if_neg h55]
    have hzero : (compressBlock (zeroFillTo 64 (putByte 0x80 s))).cur.toNat = 0 := by rw [compressBlock_cur]; rfl
    rw [zeroFillTo, zeroFill_eq _ _ (by omega)]
    simp only [hzero, Nat.sub_zero, compressBlock_h, compress_h, compressBlock_buf, compressBlock_len]
    rw [zeroFillTo, hfill]
    simp only [h1, putByte_h, putByte_buf, putByte_len]
    rw [lengthInto_fresh, written_full _ _ _ (by omega)]

/-- One stretch iteration: the new digest is one compression of BLOCK_i from IV (R162, R163). -/
theorem stretchIteration_dig (s : State) :
    (stretchIteration s).dig = compressWords initialHash (stretchBlock s.dig) := by
  rw [stretchIteration, latchDigest_dig, compress_h]

/-- All that the stretch loop can do: DIG is re-hashed n times; otherwise only H, BUF and the transients change (R164). -/
theorem stretchLoop_eq (n : Nat) (s : State) :
    stretchLoop n s =
      { s with
        h := (stretchLoop n s).h, buf := (stretchLoop n s).buf, tr := (stretchLoop n s).tr
        dig := (fun d => compressWords initialHash (stretchBlock d))^[n] s.dig } := by
  induction n generalizing s with
  | zero => rfl
  | succ n ih =>
    rw [stretchLoop, ih]
    simp only [countDown_dig, stretchIteration_dig, Function.iterate_succ, Function.comp]
    rfl

end Sys2Proof.Machine
end

