-- ==== Sys2Proof/Laws/Commands.lean ====
section
/-! SUPPORT. The two moments of every command (R100), acceptance (R208), and what a command's engine step does, each said once. -/

namespace Sys2Proof.Machine

/-- The check CommandIssue makes of a command, beside BUSY (R208). -/
def commandCheck : Instr → State → Option Cause
  | .nop, _ | .init, _ | .zeroize, _ | .clrerr, _ => none
  | .update0, s => updateCheck 0 s
  | .update1, s => updateCheck 1 s
  | .update2, s => updateCheck 2 s
  | .update3, s => updateCheck 3 s
  | .update4, s => updateCheck 4 s
  | .final, s => needsActive s
  | .stretch, s => stretchCheck s

/-- The state CommandIssue leaves for a legal word (R208). -/
def issued (i : Instr) (s : State) : State :=
  match i with
  | .nop => issueAtOnce id s
  | .clrerr => issueAtOnce clearError s
  | .init | .update0 | .update1 | .update2 | .update3 | .update4 | .final | .stretch | .zeroize =>
    issue i (commandCheck i) s

/-- The state the engine step of a command leaves (R62). -/
def performed (p : Pending) (s : State) : State :=
  match p.cmd with
  | .nop => finishStep s
  | .init => performInit s
  | .update0 | .update1 | .update2 | .update3 | .update4 => performUpdate (byteCount p.cmd) p.data s
  | .final => performFinal s
  | .stretch => performStretch p.iter s
  | .zeroize => performZeroize s
  | .clrerr => finishStep (clearError s)

/-- At the host's move a command is being written to CMD: the outcome is always a next state. -/
theorem exec_host (i : Instr) (s : State) (hm : s.mover = .host) : exec i s = .next (issued i s) := by
  cases i <;> simp only [exec, execNop, execInit, execUpdate0, execUpdate1, execUpdate2, execUpdate3, execUpdate4,
    execFinal, execStretch, execZeroize, execClrerr, atMoment, hm] <;> rfl

/-- At the engine's move the pending command is performed, if CUR is inside the buffer (R62). -/
theorem exec_engine (s : State) (p : Pending) (hm : s.mover = .engine) (hp : s.pend = some p)
    (hc : s.cur.toNat < 64) : exec p.cmd s = .next (performed p s) := by
  obtain ⟨cmd, data, iter⟩ := p
  cases cmd <;> simp only [exec, execNop, execInit, execUpdate0, execUpdate1, execUpdate2, execUpdate3, execUpdate4,
    execFinal, execStretch, execZeroize, execClrerr, atMoment, hm, hp, withinBuffer, if_pos hc] <;> rfl

/-- With CUR outside the buffer, a command that needs no buffer byte is performed and the others stop (R24, log 6). -/
theorem exec_engine_outside (s : State) (p : Pending) (hm : s.mover = .engine) (hp : s.pend = some p)
    (hc : ¬ s.cur.toNat < 64) :
    exec p.cmd s =
      if needsInstance p.cmd = true ∧ p.cmd ≠ .update0 then .fault .cursorOutsideBuffer else .next (performed p s) := by
  obtain ⟨cmd, data, iter⟩ := p
  cases cmd <;> simp only [exec, execNop, execInit, execUpdate0, execUpdate1, execUpdate2, execUpdate3, execUpdate4,
    execFinal, execStretch, execZeroize, execClrerr, atMoment, hm, hp, withinBuffer, if_neg hc, needsInstance] <;>
    (simp [performed]; try rfl)

/-- A check that fails names a cause; it is never NONE. -/
theorem commandCheck_ne_none (i : Instr) (s : State) (c : Cause) (h : commandCheck i s = some c) : c ≠ .none := by
  cases i <;> simp only [commandCheck, updateCheck, stretchCheck, needsActive] at h <;>
    (try split at h) <;> (try split at h) <;> simp_all <;> rintro rfl <;> simp_all

/-- All that CommandIssue of a legal word can do (R208): a rejection that is captured, an acceptance into PEND, or the effect of NOP or CLRERR. -/
theorem issued_cases (i : Instr) (s : State) :
    (s.busy = true ∧ issued i s = raiseError .busyWrite s) ∨
    (s.pend = none ∧ ∃ c, commandCheck i s = some c ∧ issued i s = raiseError c s) ∨
    (s.pend = none ∧ commandCheck i s = none ∧ goesThroughPend i = true ∧ issued i s = accept i s) ∨
    (s.pend = none ∧ i = .nop ∧ issued i s = s) ∨
    (s.pend = none ∧ i = .clrerr ∧ issued i s = clearError s) := by
  by_cases hb : s.busy = true
  · exact .inl ⟨hb, by cases i <;> simp [issued, issue, issueAtOnce, hb]⟩
  · have hp : s.pend = none := by simpa [State.busy] using hb
    right
    cases i <;> simp [issued, issue, issueAtOnce, hb, hp, goesThroughPend, commandCheck]
    all_goals (split <;> simp_all)

/-- UPDATE's engine step writes H, BUF, CUR, LEN, the transients, and empties PEND. -/
theorem absorbAll_frame (bs : List Byte) (s : State) :
    absorbAll bs s =
      { s with
        h := (absorbAll bs s).h, buf := (absorbAll bs s).buf, cur := (absorbAll bs s).cur,
        tr := (absorbAll bs s).tr } := by
  induction bs generalizing s with
  | nil => rfl
  | cons b bs ih =>
    have hstep : absorbAll (b :: bs) s = absorbAll bs (absorb s b) := rfl
    have hb : absorb s b =
        { s with
          h := (absorb s b).h, buf := (absorb s b).buf, cur := (absorb s b).cur, tr := (absorb s b).tr } := by
      rw [absorb_eq]; split <;> rfl
    rw [hstep, ih, hb]

/-- FINAL's engine step, whole (R106). -/
theorem performFinal_eq (s : State) (hc : s.cur.toNat < 64) :
    performFinal s =
      { s with
        h := Vector.replicate 8 0, buf := Vector.replicate 64 0, cur := 0,
        dig := finalDigest s.h s.buf s.cur.toNat s.len, dataIn := 0, tr := .zero, phase := .done, pend := none } := by
  rw [← padAndCompress_h s hc, performFinal, padAndCompress_frame]
  rfl

/-- STRETCH's engine step, whole (R161). -/
theorem performStretch_eq (iter : Word) (s : State) (hc : s.cur.toNat < 64) :
    performStretch iter s =
      { s with
        h := Vector.replicate 8 0, buf := Vector.replicate 64 0, cur := 0,
        dig := (fun d => compressWords initialHash (stretchBlock d))^[(stretchCount iter).toNat]
          (finalDigest s.h s.buf s.cur.toNat s.len),
        dataIn := 0, tr := .zero, phase := .done, pend := none } := by
  rw [← padAndCompress_h s hc, performStretch, stretchIterations, stretchLoop_eq, padAndCompress_frame]
  rfl

end Sys2Proof.Machine
end

