-- ==== Sys2Proof/Laws/Message.lean ====
section
/-! SUPPORT. The blocks of a message: their bytes, and that hashing the first n blocks reads no byte beyond them (R104, R110). The block builders are irreducible; these lemmas say what they hold. -/

namespace Sys2Proof.Machine

theorem lastBlock_getElem (buf : Vector Byte 64) (cur : Nat) (len : BitVec 64) (i : Nat) (hi : i < 64) :
    (lastBlock buf cur len)[i] =
      if i < cur then buf[i] else if i = cur then 0x80 else if i < 56 then 0 else longByte len (i - 56) := by
  simp [lastBlock]

theorem fullPadBlock_getElem (buf : Vector Byte 64) (cur i : Nat) (hi : i < 64) :
    (fullPadBlock buf cur)[i] = if i < cur then buf[i] else if i = cur then 0x80 else 0 := by
  simp [fullPadBlock]

theorem lengthBlock_getElem (len : BitVec 64) (i : Nat) (hi : i < 64) :
    (lengthBlock len)[i] = if i < 56 then 0 else longByte len (i - 56) := by
  simp [lengthBlock]

theorem messageBlock_getElem (m : List Byte) (j i : Nat) (hi : i < 64) :
    (messageBlock m j)[i] = m.getD (64 * j + i) 0 := by
  simp [messageBlock]

theorem stretchBlock_getElem (d : Vector Word 8) (i : Nat) (hi : i < 64) :
    (stretchBlock d)[i] = ((stretchBlockWords d).flatMap bytes32).getD i 0 := by
  simp [stretchBlock]

theorem hashBlocks_zero (m : List Byte) : hashBlocks 0 m = initialHash := by simp [hashBlocks]

theorem hashBlocks_succ (n : Nat) (m : List Byte) :
    hashBlocks (n + 1) m = compressWords (hashBlocks n m) (messageBlock m n) := by
  simp [hashBlocks, List.range_succ]

theorem messageBlock_append (m bs : List Byte) (j : Nat) (h : 64 * (j + 1) ≤ m.length) :
    messageBlock (m ++ bs) j = messageBlock m j := by
  apply Vector.ext; intro i hi
  simp only [messageBlock_getElem, List.getD_eq_getElem?_getD]
  rw [List.getElem?_append_left (by omega)]

theorem hashBlocks_append (n : Nat) (m bs : List Byte) (h : 64 * n ≤ m.length) :
    hashBlocks n (m ++ bs) = hashBlocks n m := by
  induction n with
  | zero => rw [hashBlocks_zero, hashBlocks_zero]
  | succ n ih => rw [hashBlocks_succ, hashBlocks_succ, ih (by omega), messageBlock_append _ _ _ (by omega)]

theorem padMessage_length (m : List Byte) : (padMessage m).length = m.length + 1 + padZeros m.length + 8 := by
  simp [padMessage, bytes64]; omega

end Sys2Proof.Machine
end

