-- ==== Sys2Proof/Laws/PerInstr.lean ====
section
/-! SUPPORT. One family of statements about each instruction as syntax: its command word satisfies `legal`, the formula of R86. -/

namespace Sys2Proof.Laws.LegalWord

/-- The command word of an instruction is legal (R86, R87). -/
def Statement (i : Instr) : Prop := legal (encode i) = true

theorem nop : Statement .nop := by unfold Statement; decide
theorem init : Statement .init := by unfold Statement; decide
theorem update0 : Statement .update0 := by unfold Statement; decide
theorem update1 : Statement .update1 := by unfold Statement; decide
theorem update2 : Statement .update2 := by unfold Statement; decide
theorem update3 : Statement .update3 := by unfold Statement; decide
theorem update4 : Statement .update4 := by unfold Statement; decide
theorem final : Statement .final := by unfold Statement; decide
theorem stretch : Statement .stretch := by unfold Statement; decide
theorem zeroize : Statement .zeroize := by unfold Statement; decide
theorem clrerr : Statement .clrerr := by unfold Statement; decide

end Sys2Proof.Laws.LegalWord
end

