-- ==== Sys2Proof/Laws/Step.lean ====
section
/-! SUPPORT. What a step can do, said once: the host's move never stops, and a step that answers a next state is one of four cases (R60, R62, R231). -/

namespace Sys2Proof.Machine

/-- The state a write of the host leaves, before the access is recorded (R52, R208). -/
def writeNext (off : Offset) (size : AccessSize) (v : Word) (s : State) : State :=
  if badAccess off size then raiseError .badAccess s
  else if off = 0x00 then
    match decode v with
    | .ok i => issued i s
    | .error _ => issueIllegal s
  else writeRegister off v s

/-- The state the host's move leaves (R51, R89, R90). -/
def hostNext (s : State) : State :=
  match s.prog with
  | [] => s
  | .read off size :: rest => complete (regRead off size s).1 rest (regRead off size s).2
  | .write off size v :: rest => complete { value := none, error := badAccess off size } rest (writeNext off size v s)
  | .wait :: rest => if s.busy then s else complete (statusResponse s) rest s
  | .checkok :: rest => complete (statusResponse s) rest { s with unmet := s.unmet || s.err }
  | .checkdone guarded :: rest =>
    complete (statusResponse s) (if resultValid (statusWord s) then rest else rest.drop guarded)
      { s with unmet := s.unmet || !resultValid (statusWord s) }

theorem statusWord_busy (s : State) : (statusWord s).getLsbD 0 = s.busy := by
  unfold statusWord
  cases s.busy <;> cases s.err <;> cases s.phase <;> cases s.cause <;> rfl

theorem statusWord_err (s : State) : (statusWord s).getLsbD 1 = s.err := by
  unfold statusWord
  cases s.busy <;> cases s.err <;> cases s.phase <;> cases s.cause <;> rfl

/-- STATUS[3:0] = 8 says that nothing is pending, no error is recorded and PHASE is DONE (R36, R168). -/
theorem resultValid_statusWord (s : State) :
    resultValid (statusWord s) = (!s.busy && !s.err && decide (s.phase = .done)) := by
  unfold resultValid statusWord
  cases s.busy <;> cases s.err <;> cases s.phase <;> cases s.cause <;> rfl

theorem regWrite_host (off : Offset) (size : AccessSize) (v : Word) (s : State) (hm : s.mover = .host) :
    regWrite off size v s = .next (writeNext off size v s) := by
  unfold regWrite writeNext commandIssue
  split
  · rfl
  · split
    · cases decode v with
      | ok i => exact exec_host i s hm
      | error e => rfl
    · rfl

/-- The host's move always answers a next state (R200). -/
theorem hostTurn_host (s : State) (hm : s.mover = .host) : hostTurn s = .next (hostNext s) := by
  unfold hostTurn hostNext
  cases hp : s.prog with
  | nil => rfl
  | cons op rest =>
    cases op with
    | read off size => rfl
    | write off size v => simp only [hostMove, regWrite_host off size v s hm, mapNext]
    | wait => simp only [hostMove, statusWord_busy]; split <;> rfl
    | checkok => simp only [hostMove]; rw [statusWord_err]; rfl
    | checkdone guarded => rfl

theorem step_host (s : State) (hm : s.mover = .host) : step s = .next (advance (hostNext s)) := by
  simp only [step, agentMove, hm, hostTurn_host s hm, mapNext]

theorem step_reset (s : State) (hm : s.mover = .reset) : step s = .next (advance (hwReset s)) := by
  simp only [step, agentMove, hm, mapNext]

theorem step_engine_idle (s : State) (hm : s.mover = .engine) (hp : s.pend = none) : step s = .next (advance s) := by
  simp only [step, agentMove, hm, engineTurn, hp, mapNext]

theorem step_engine (s : State) (p : Pending) (hm : s.mover = .engine) (hp : s.pend = some p) (hc : s.cur.toNat < 64) :
    step s = .next (advance (performed p s)) := by
  simp only [step, agentMove, hm, engineTurn, hp, exec_engine s p hm hp hc, mapNext]

/-- All that a step which answers a next state can do. -/
theorem step_cases (s t : State) (h : step s = .next t) :
    (s.mover = .reset ∧ t = advance (hwReset s)) ∨
    (s.mover = .host ∧ t = advance (hostNext s)) ∨
    (s.mover = .engine ∧ s.pend = none ∧ t = advance s) ∨
    (s.mover = .engine ∧ ∃ p, s.pend = some p ∧ t = advance (performed p s)) := by
  cases hm : s.mover with
  | reset => rw [step_reset s hm] at h; cases h; exact .inl ⟨rfl, rfl⟩
  | host => rw [step_host s hm] at h; cases h; exact .inr (.inl ⟨rfl, rfl⟩)
  | engine =>
    cases hp : s.pend with
    | none => rw [step_engine_idle s hm hp] at h; cases h; exact .inr (.inr (.inl ⟨rfl, rfl, rfl⟩))
    | some p =>
      refine .inr (.inr (.inr ⟨rfl, p, rfl, ?_⟩))
      by_cases hc : s.cur.toNat < 64
      · rw [step_engine s p hm hp hc] at h; cases h; rfl
      · simp only [step, agentMove, hm, engineTurn, hp, exec_engine_outside s p hm hp hc] at h
        split at h <;> simp only [mapNext] at h <;> cases h
        rfl

/-- What a read of the host changes: nothing, but a draw of an unspecified value, or a captured BAD_ACCESS (R57). -/
theorem regRead_cases (off : Offset) (size : AccessSize) (s : State) :
    (badAccess off size = true ∧ (regRead off size s).2 = raiseError .badAccess s) ∨
    (badAccess off size = false ∧
      ((regRead off size s).2 = s ∨ (s.busy = true ∧ (regRead off size s).2 = { s with draws := s.draws + 1 }))) := by
  by_cases hb : badAccess off size = true
  · exact .inl ⟨hb, by simp [regRead, hb]⟩
  · refine .inr ⟨by simpa using hb, ?_⟩
    simp only [regRead, if_neg hb, readRegister, readUnlessBusy]
    by_cases hbusy : s.busy = true
    · simp only [hbusy]
      repeat' split
      all_goals first | exact .inl rfl | exact .inr ⟨trivial, rfl⟩
    · simp only [hbusy]
      repeat' split
      all_goals first | exact .inl rfl | contradiction

/-- All that a write of the host can do, before it is recorded (R52, R203, R207, R208). -/
theorem writeNext_cases (off : Offset) (size : AccessSize) (v : Word) (s : State) :
    (∃ c, c ≠ .none ∧ writeNext off size v s = raiseError c s) ∨
    writeNext off size v s = s ∨
    (s.pend = none ∧ writeNext off size v s = { s with dataIn := v } ∧ off = 0x08 ∧ size = .four) ∨
    (s.pend = none ∧ writeNext off size v s = { s with iter := v } ∧ off = 0x0C ∧ size = .four) ∨
    (s.pend = none ∧ off = 0x00 ∧ size = .four ∧ ∃ i, decode v = .ok i ∧
      ((i = .clrerr ∧ writeNext off size v s = clearError s) ∨
       (goesThroughPend i = true ∧ commandCheck i s = none ∧ writeNext off size v s = accept i s))) := by
  by_cases hb : badAccess off size = true
  · exact .inl ⟨.badAccess, by simp, by simp [writeNext, hb]⟩
  · have hsize : size = .four := by
      cases size <;> simp_all [badAccess, sizeBytes]
    have hpend : ∀ b, s.busy = b → b = false → s.pend = none := by
      intro b h1 h2; subst h2; simpa [State.busy] using h1
    by_cases h0 : off = 0x00
    · simp only [writeNext, hb, if_pos h0]
      cases hd : decode v with
      | error e =>
        left
        by_cases hbusy : s.busy = true
        · exact ⟨.busyWrite, by simp, by simp [issueIllegal, hbusy]⟩
        · exact ⟨.illegalCmd, by simp, by simp [issueIllegal, hbusy]⟩
      | ok i =>
        rcases issued_cases i s with ⟨-, h⟩ | ⟨-, c, hc, h⟩ | ⟨hp, hc, hg, h⟩ | ⟨-, -, h⟩ | ⟨hp, hi, h⟩
        · exact .inl ⟨.busyWrite, by simp, by simpa using h⟩
        · exact .inl ⟨c, commandCheck_ne_none i s c hc, by simpa using h⟩
        · exact .inr (.inr (.inr (.inr ⟨hp, h0, hsize, i, rfl, .inr ⟨hg, hc, by simpa using h⟩⟩)))
        · exact .inr (.inl (by simpa using h))
        · exact .inr (.inr (.inr (.inr ⟨hp, h0, hsize, i, rfl, .inl ⟨hi, by simpa using h⟩⟩)))
    · simp only [writeNext, hb, if_neg h0, writeRegister]
      by_cases h8 : off = 0x08
      · by_cases hbusy : s.busy = true
        · exact .inl ⟨.busyWrite, by simp, by simp [h8, hbusy]⟩
        · exact .inr (.inr (.inl ⟨hpend _ rfl (by simpa using hbusy), by simp [h8, hbusy], h8, hsize⟩))
      · by_cases h12 : off = 0x0C
        · by_cases hbusy : s.busy = true
          · exact .inl ⟨.busyWrite, by simp, by simp [h12, hbusy]⟩
          · exact .inr (.inr (.inr (.inl ⟨hpend _ rfl (by simpa using hbusy), by simp [h12, hbusy], h12, hsize⟩)))
        · exact .inr (.inl (by rw [if_neg h8, if_neg h12]; simp))

end Sys2Proof.Machine
end

