-- ==== Sys2Proof/Tests/Slice0.lean ====
section
/-! SUPPORT. The model's own tests. Expected values are the vectors of spec/95_test_vectors.md (named in each comment) or words written out from 30_encoding.md. Then, for every statement with hypotheses, a concrete state that meets them. -/

namespace Sys2Proof.Tests

open Sys2Proof Sys2Proof.Machine

-- each test is checked in turn: many at once would each hold a thread of their own
set_option Elab.async false

/-! ### Well-formedness: each check refuses a term -/

/-- R81: bit 7, the lowest reserved bit, is set. -/
theorem test_wf_refuses_reserved_bit :
    RawCommand.wellFormed { rsvd := 1, nb := 0, op := 0 } = false ∧
    RawCommand.reservedZero { rsvd := 1, nb := 0, op := 0 } = false := by decide

/-- R82: OP 0x7 is reserved. -/
theorem test_wf_refuses_reserved_opcode :
    RawCommand.wellFormed { rsvd := 0, nb := 0, op := 7 } = false ∧
    RawCommand.opcodeDefined { rsvd := 0, nb := 0, op := 7 } = false := by decide

/-- R83: UPDATE with NB 5 and FINAL with NB 1. -/
theorem test_wf_refuses_byte_count :
    RawCommand.wellFormed { rsvd := 0, nb := 5, op := 2 } = false ∧
    RawCommand.wellFormed { rsvd := 0, nb := 1, op := 3 } = false := by decide

theorem test_wf_accepts_update4 : RawCommand.wellFormed { rsvd := 0, nb := 4, op := 2 } = true := by decide

/-! ### Decoding: words written out bit by bit, RSVD ++ NB ++ OP (R81, R82) -/

theorem test_decode_plain_words :
    decode (0b0000000000000000000000000#25 ++ 0b000#3 ++ 0b0000#4) = .ok .nop ∧
    decode (0b0000000000000000000000000#25 ++ 0b000#3 ++ 0b0001#4) = .ok .init ∧
    decode (0b0000000000000000000000000#25 ++ 0b000#3 ++ 0b0011#4) = .ok .final ∧
    decode (0b0000000000000000000000000#25 ++ 0b000#3 ++ 0b0100#4) = .ok .stretch ∧
    decode (0b0000000000000000000000000#25 ++ 0b000#3 ++ 0b0101#4) = .ok .zeroize ∧
    decode (0b0000000000000000000000000#25 ++ 0b000#3 ++ 0b0110#4) = .ok .clrerr := by decide

theorem test_decode_update_words :
    decode (0b0000000000000000000000000#25 ++ 0b000#3 ++ 0b0010#4) = .ok .update0 ∧
    decode (0b0000000000000000000000000#25 ++ 0b001#3 ++ 0b0010#4) = .ok .update1 ∧
    decode (0b0000000000000000000000000#25 ++ 0b010#3 ++ 0b0010#4) = .ok .update2 ∧
    decode (0b0000000000000000000000000#25 ++ 0b011#3 ++ 0b0010#4) = .ok .update3 ∧
    decode (0b0000000000000000000000000#25 ++ 0b100#3 ++ 0b0010#4) = .ok .update4 := by decide

/-- 2.9: the illegal words, each refused under the name of its fault. -/
theorem test_decode_refuses_by_name :
    decode 0x00000052 = .error .byteCount ∧ decode 0x00000062 = .error .byteCount ∧
    decode 0x00000072 = .error .byteCount ∧ decode 0x00000013 = .error .byteCount ∧
    decode 0x00000016 = .error .byteCount ∧ decode 0x00000007 = .error .reservedOpcode ∧
    decode 0x00000008 = .error .reservedOpcode ∧ decode 0x0000000F = .error .reservedOpcode ∧
    decode 0x00000080 = .error .reservedBits ∧ decode 0x00000102 = .error .reservedBits ∧
    decode 0x80000001 = .error .reservedBits := by decide

/-- The rows of spec/opcode_table.json, read as the table numbers their bits. -/
theorem test_table_rows_decode :
    [0x00, 0x01, 0x02, 0x12, 0x22, 0x32, 0x42, 0x03, 0x04, 0x05, 0x06].map (decodeTableWord 32) =
      [some .nop, some .init, some .update0, some .update1, some .update2, some .update3, some .update4,
       some .final, some .stretch, some .zeroize, some .clrerr] := by decide

/-! ### The word functions and the compression (2.1 to 2.4) -/

/-- 2.1, the row of IV[4]. -/
theorem test_sigma_gamma :
    bigSigma0 0x510E527F = 0x7EF0E1A9 ∧ bigSigma1 0x510E527F = 0x3587272B ∧
    gamma0 0x510E527F = 0x601C02A8 ∧ gamma1 0x510E527F = 0xE3640132 := by decide

/-- 2.1. -/
theorem test_ch_maj :
    ch 0xF0F0F0F0 0x12345678 0x9ABCDEF0 = 0x1A3C5E70 ∧ maj 0xF0F0F0F0 0xCCCCCCCC 0xAAAAAAAA = 0xE8E8E8E8 ∧
    rotr 0x12345678 31 = 0x2468ACF0 := by decide

/-- The padded block of "abc" (2.2). -/
def abcBlock : Vector Byte 64 :=
  Vector.ofFn fun i =>
    if i.val = 0 then 0x61 else if i.val = 1 then 0x62 else if i.val = 2 then 0x63 else if i.val = 3 then 0x80
    else if i.val = 63 then 0x18 else 0

/-- 2.2: W[17] and W[63]. -/
theorem test_schedule :
    scheduleWord (schedule abcBlock) 17 = 0x000F0000 ∧ scheduleWord (schedule abcBlock) 63 = 0x12B1EDEB := by
  decide +kernel

/-- 2.3: the first round. -/
theorem test_round_zero :
    let x := round (loadWorking initialHash abcBlock .zero) 0
    (x.t1, x.t2, x.a, x.e, x.h) = (0x54DA50E8, 0x08909AE5, 0x5D6AEBCD, 0xFA2A4622, 0x1F83D9AB) := by
  decide +kernel

/-- 2.4, third row: H all 0, a block of zeros. -/
theorem test_compress_zero :
    compressWords (Vector.replicate 8 0) (Vector.replicate 64 0) =
      #v[0x7CA51614, 0x425C3BA8, 0xCE54DD2F, 0xC2020AE7, 0xB6E574D1, 0x98136D0F, 0xAE7E26CC, 0xBF0BE7A6] := by
  decide +kernel

/-! ### The states the tests start from -/

/-- After INIT's engine step (2.6, UP1). -/
def active : State := { State.reset with h := initialHash, phase := .active }

/-- ACTIVE with `n` bytes 'a' absorbed, n < 64. -/
def activeA (n : Nat) : State :=
  { active with
    buf := Vector.ofFn fun i => if i.val < n then 0x61 else 0
    cur := BitVec.ofNat 7 n
    len := BitVec.ofNat 64 (8 * n) }

/-- ACTIVE with "abc" absorbed. -/
def activeAbc : State :=
  { active with
    buf := Vector.ofFn fun i => if i.val = 0 then 0x61 else if i.val = 1 then 0x62 else if i.val = 2 then 0x63 else 0
    cur := 3
    len := 24 }

/-- DONE after FINAL of "abc" (program P1). -/
def doneAbc : State :=
  { State.reset with
    dig := #v[0xBA7816BF, 0x8F01CFEA, 0x414140DE, 0x5DAE2223, 0xB00361A3, 0x96177A9C, 0xB410FF61, 0xF20015AD]
    len := 24
    phase := .done }

/-- The command i pending with these operands, and the engine to move. -/
def engineReady (i : Instr) (data iter : Word) (s : State) : State :=
  { s with pend := some { cmd := i, data := data, iter := iter }, dataIn := data, iter := iter, sched := [.engine] }

/-- The host to move while INIT is pending. -/
def hostWhileBusy (ops : List HostOp) : State :=
  { accept .init State.reset with sched := [.host], prog := ops }

/-- The host to move with these accesses. -/
def hostWith (ops : List HostOp) (s : State) : State := { s with sched := [.host], prog := ops }

/-- The state one step leads to, if it is a next state. -/
def stepped (s : State) : Option State :=
  match step s with
  | .next t => some t
  | .fault _ => none
  | .refused _ => none

/-- STATUS after one step. -/
def statusAfter (s : State) : Option Word := (stepped s).map statusWord

/-- STATUS after the word w is written to CMD. -/
def statusAfterWord (s : State) (w : Nat) : Option Word := statusAfter (s.withFetchWord 32 w)

/-! ### One step: acceptance and rejection -/

/-- 2.9, the column "STATUS from reset". -/
theorem test_status_from_reset :
    [0x00, 0x01, 0x02, 0x12, 0x22, 0x32, 0x42, 0x52, 0x62, 0x72, 0x03, 0x13, 0x04, 0x05, 0x06, 0x16, 0x07, 0x08,
     0x0F, 0x80, 0x102, 0x80000001].map (statusAfterWord State.reset) =
    [some 0x00, some 0x01, some 0x22, some 0x22, some 0x22, some 0x22, some 0x22, some 0x12, some 0x12, some 0x12,
     some 0x22, some 0x12, some 0x22, some 0x01, some 0x00, some 0x12, some 0x12, some 0x12, some 0x12, some 0x12,
     some 0x12, some 0x12] := by decide +kernel

/-- 2.9, the column "STATUS from ACTIVE". -/
theorem test_status_from_active :
    [0x00, 0x01, 0x02, 0x12, 0x22, 0x32, 0x42, 0x52, 0x62, 0x72, 0x03, 0x13, 0x04, 0x05, 0x06, 0x16, 0x07, 0x08,
     0x0F, 0x80, 0x102, 0x80000001].map (statusAfterWord active) =
    [some 0x04, some 0x05, some 0x05, some 0x05, some 0x05, some 0x05, some 0x05, some 0x16, some 0x16, some 0x16,
     some 0x05, some 0x16, some 0x05, some 0x05, some 0x04, some 0x16, some 0x16, some 0x16, some 0x16, some 0x16,
     some 0x16, some 0x16] := by decide +kernel

/-- 2.9, the priority corner case: BUSY_WRITE before ILLEGAL_CMD. -/
theorem test_illegal_word_while_busy :
    statusAfter (hostWhileBusy [.write 0x00 .four 0x00000007]) = some 0x00000043 := by decide +kernel

/-- ER5, UP10: an UPDATE past 2^64 - 1 bits. -/
theorem test_update1_overflows :
    statusAfterWord { active with len := 0xFFFFFFFFFFFFFFF8 } 0x12 = some 0x00000056 := by decide +kernel

/-- UP11: UPDATE 0 never overflows. -/
theorem test_update0_never_overflows :
    statusAfterWord { active with len := 0xFFFFFFFFFFFFFFF8 } 0x02 = some 0x00000005 := by decide +kernel

/-- ST13: a count of -1 is rejected and the phase stays ACTIVE. -/
theorem test_stretch_refuses_negative_count :
    statusAfterWord { activeAbc with iter := 0xFFFFFFFF } 0x04 = some 0x00000036 := by decide +kernel

/-- ER12: SEQUENCE outranks NEG_ITER. -/
theorem test_sequence_outranks_neg_iter :
    statusAfterWord { doneAbc with iter := 0xFFFFFFFF } 0x04 = some 0x0000002A := by decide +kernel

/-- CT6: CLRERR clears the error record. -/
theorem test_clrerr_clears :
    statusAfterWord { State.reset with err := true, cause := .sequence } 0x06 = some 0x00000000 := by decide +kernel

/-- CT9: CLRERR while busy is rejected; the first cause is kept. -/
theorem test_clrerr_while_busy :
    statusAfter { hostWhileBusy [.write 0x00 .four 0x00000006] with err := true, cause := .negIter } =
      some 0x00000033 := by decide +kernel

/-! ### One step: the engine -/

/-- UP8: re-INIT discards the instance. -/
theorem test_init_discards_instance :
    (stepped (engineReady .init 0 0 activeAbc)).map (fun t => (statusWord t, t.len, t.cur, t.h)) =
      some (0x00000004, 0, 0, initialHash) := by decide +kernel

/-- UP3: UPDATE 0 leaves CUR and LEN. -/
theorem test_update0_unchanged :
    (stepped (engineReady .update0 0x61626364 0 (activeA 1))).map (fun t => (t.cur, t.len, statusWord t)) =
      some (1, 8, 4) := by decide +kernel

/-- UP2: only the top byte is taken. -/
theorem test_update1_top_byte :
    (stepped (engineReady .update1 0x61626364 0 active)).map (fun t => (t.buf[0], t.buf[1], t.cur, t.len)) =
      some (0x61, 0, 1, 8) := by decide +kernel

/-- UP4: the buffer holds 61 61 62. -/
theorem test_update2_appends :
    (stepped (engineReady .update2 0x61626364 0 (activeA 1))).map
      (fun t => (t.buf[0], t.buf[1], t.buf[2], t.buf[3], t.cur, t.len)) =
      some (0x61, 0x61, 0x62, 0, 3, 24) := by decide +kernel

/-- SE7: "abc" as one UPDATE 3. -/
theorem test_update3_abc :
    (stepped (engineReady .update3 0x61626300 0 active)).map (fun t => (t.buf, t.cur, t.len)) =
      some (activeAbc.buf, 3, 24) := by decide +kernel

/-- UP6: the sixteenth UPDATE 4 of 61616161 performs one compression. -/
theorem test_update4_compresses :
    (stepped (engineReady .update4 0x61616161 0 (activeA 60))).map (fun t => (t.h, t.cur, t.len)) =
      some (#v[0xDF5BB81C, 0xE81E0626, 0xFB45A894, 0x4FD40F31, 0xB25E6816, 0xD6D499C1, 0xAB904929, 0x00635E66],
        0, 512) := by decide +kernel

/-- 2.6, UP5: UPDATE 4 after three bytes. -/
theorem test_update4_appends :
    (stepped (engineReady .update4 0x61626364 0 activeAbc)).map
      (fun t => (t.buf[3], t.buf[6], t.buf[7], t.cur, t.len)) =
      some (0x61, 0x64, 0, 7, 56) := by decide +kernel

/-- FI4: SHA256("abc"), and what FINAL leaves. -/
theorem test_final_abc :
    (stepped (engineReady .final 0x61626300 0 activeAbc)) = some doneAbc := by decide +kernel

/-- 2.5, L = 56: two compressions. -/
theorem test_final_two_blocks :
    (stepped (engineReady .final 0 0 (activeA 56))).map (fun t => (t.dig, t.len)) =
      some (#v[0xB35439A4, 0xAC6F0948, 0xB6D6F9E3, 0xC6AF0F5F, 0x590CE20F, 0x1BDE7090, 0xEF797068, 0x6EC6738A],
        0x1C0) := by decide +kernel

/-- ST5: stretch("abc", 1). -/
theorem test_stretch_once :
    (stepped (engineReady .stretch 0 1 activeAbc)).map (fun t => (t.dig, statusWord t, t.iter)) =
      some (#v[0x4F8B42C2, 0x2DD3729B, 0x519BA6F6, 0x8D2DA7CC, 0x5B2D606D, 0x05DAED5A, 0xD5128CC0, 0x3E6C6358],
        8, 1) := by decide +kernel

/-- CT3: ZEROIZE after FINAL. -/
theorem test_zeroize_after_final :
    (stepped (engineReady .zeroize 0 5 doneAbc)) = some { State.reset with iter := 5 } := by decide +kernel

/-- CT10: ERR and CAUSE survive ZEROIZE. -/
theorem test_zeroize_keeps_error :
    statusAfter { engineReady .zeroize 0 0 activeAbc with err := true, cause := .negIter } = some 0x00000032 := by
  decide +kernel

/-! ### One step: register accesses and reset -/

/-- ER4, ER6, ER7, ER8, ER13. -/
theorem test_bad_and_busy_accesses :
    statusAfter (hostWhileBusy [.write 0x08 .four 0x61626300]) = some 0x00000043 ∧
    statusAfter (hostWith [.write 0x04 .one 0] State.reset) = some 0x00000062 ∧
    statusAfter (hostWith [.read 0x02 .four] State.reset) = some 0x00000062 ∧
    statusAfter (hostWith [.write 0x0E .four 0] State.reset) = some 0x00000062 ∧
    statusAfter (hostWhileBusy [.write 0x00 .one 0x07]) = some 0x00000063 := by decide +kernel

/-- RG7, RG9: what the host reads after P1. -/
theorem test_reads_after_p1 :
    (regRead 0x20 .four doneAbc).1 = { value := some 0xBA7816BF, error := false } ∧
    (regRead 0x3C .four doneAbc).1 = { value := some 0xF20015AD, error := false } ∧
    (regRead 0x10 .four doneAbc).1 = { value := some 0x18, error := false } ∧
    (bytesOfWords doneAbc.dig).take 5 = [0xBA, 0x78, 0x16, 0xBF, 0x8F] := by decide +kernel

/-- RS1: reset while a command is pending. -/
theorem test_reset_clears_all :
    stepped { engineReady .stretch 3 5 activeAbc with sched := [.reset] } = some State.reset := by decide +kernel

/-- R168: after a reset STATUS does not show DONE, so the guarded reads are not made and the run is not clean. -/
theorem test_checkdone_after_reset :
    (stepped (hostWith (expand .readdigWhenDone) State.reset)).map (fun t => (t.prog, t.clean, t.readValues)) =
      some ([], false, [0]) := by decide +kernel

/-- R168: in DONE without an error the digest is read. -/
theorem test_checkdone_when_done :
    (stepped (hostWith (expand .readdigWhenDone) doneAbc)).map (fun t => (t.prog.length, t.clean, t.readValues)) =
      some (8, true, [8]) := by decide +kernel

/-- R241: the last read of WAIT is a value of the observation (P1, statement 8). -/
theorem test_wait_last_read :
    (stepped (hostWith [.wait] doneAbc)).map (fun t => (t.prog, t.readValues)) = some ([], [8]) := by decide +kernel

/-- R90: PUSH, and the statements that absorb five bytes. -/
theorem test_push_expands :
    assemble (pushMessage [0x70, 0x61, 0x73, 0x73, 0x77]) =
      [.write 0x08 .four 0x70617373, .write 0x00 .four 0x00000042, .wait,
       .write 0x08 .four 0x77000000, .write 0x00 .four 0x00000012, .wait] := by decide +kernel

/-! ### Witnesses: states that meet the hypotheses of the statements -/

/-- A pending command and the engine's move: INIT, UPDATE 0, ZEROIZE and the rest, in any state. -/
theorem witness_engine_moves (i : Instr) :
    (engineReady i 0x61626364 5 activeAbc).mover = .engine ∧
    (engineReady i 0x61626364 5 activeAbc).pend = some { cmd := i, data := 0x61626364, iter := 5 } ∧
    (engineReady i 0x61626364 5 activeAbc).cur.toNat < 64 :=
  ⟨rfl, rfl, show activeAbc.cur.toNat < 64 by decide⟩

/-- RotrIsCircularRightRotation at the ends of both ranges, and ScheduleFollowsRecurrence's two clauses at 15, 16, 63. -/
theorem witness_rotation_and_schedule :
    (0 < 1 ∧ 1 < 32 ∧ 0 < 32) ∧ (0 < 31 ∧ 31 < 32) ∧ 15 < 16 ∧ (16 ≤ 16 ∧ 16 < 64) ∧ (16 ≤ 63 ∧ 63 < 64) := by decide

/-- CheckedCommandIsAccepted: INIT after reset; UPDATE 4 that just fits; STRETCH with the greatest count. -/
theorem witness_CheckedCommandIsAccepted :
    (State.reset.mover = .host ∧ State.reset.pend = none ∧ goesThroughPend .init = true ∧ needsInstance .init = false) ∧
    (let s := { active with len := BitVec.ofNat 64 (2 ^ 64 - 33) }
     s.mover = .host ∧ s.pend = none ∧ goesThroughPend .update4 = true ∧ s.phase = .active ∧
       s.len.toNat + 8 * byteCount .update4 = 2 ^ 64 - 1) ∧
    (let s := { active with iter := 0x7FFFFFFF }
     s.mover = .host ∧ s.pend = none ∧ s.phase = .active ∧ s.iter.toNat < 2 ^ 31 ∧
       s.len.toNat + 8 * byteCount .stretch ≤ 2 ^ 64 - 1) := by decide +kernel

/-- NopHasNoEffect, ClrerrClearsTheErrorRecord, CommandIssueChecksInOrder, and the acceptance clauses of INIT and ZEROIZE; the clauses of a busy CORE are witness_busy_host's. -/
theorem witness_free_host : State.reset.mover = .host ∧ State.reset.pend = none := ⟨rfl, rfl⟩

/-- FirstErrorIsKeptUntilCleared, both clauses of `raise Error`; the step is witness_host_step's. -/
theorem witness_FirstErrorIsKeptUntilCleared : State.reset.err = false ∧ ({ State.reset with err := true, cause := .sequence }).err = true :=
  ⟨rfl, rfl⟩

/-- WritesWhileBusyAreRejected and HostCannotDisturbAPendingCommand. -/
theorem witness_busy_host :
    (hostWhileBusy [.write 0x08 .four 1]).mover = .host ∧ (hostWhileBusy [.write 0x08 .four 1]).busy = true ∧
    (stepped (hostWhileBusy [.write 0x08 .four 1])).isSome = true := by decide +kernel

/-- CommandWithoutInstanceIsRejected in both phases that are not ACTIVE. -/
theorem witness_CommandWithoutInstanceIsRejected :
    (State.reset.mover = .host ∧ State.reset.pend = none ∧ needsInstance .final = true ∧ State.reset.phase ≠ .active) ∧
    (doneAbc.mover = .host ∧ doneAbc.pend = none ∧ needsInstance .update0 = true ∧ doneAbc.phase ≠ .active) := by
  decide

/-- NegativeCountIsRejected at the least and the greatest negative count. -/
theorem witness_NegativeCountIsRejected :
    (let s := { active with iter := 0x80000000 }
     s.mover = .host ∧ s.pend = none ∧ s.phase = .active ∧ 2 ^ 31 ≤ s.iter.toNat) ∧
    (let s := { active with iter := 0xFFFFFFFF }
     s.mover = .host ∧ s.pend = none ∧ s.phase = .active ∧ 2 ^ 31 ≤ s.iter.toNat) := by decide

/-- LengthOverflowIsRejected: one bit too many; and UPDATE 0 at the greatest LEN. -/
theorem witness_LengthOverflowIsRejected :
    (let s := { active with len := BitVec.ofNat 64 (2 ^ 64 - 8) }
     s.mover = .host ∧ s.pend = none ∧ s.phase = .active ∧ Instr.op .update1 = 0x2 ∧
       s.len.toNat + 8 * byteCount .update1 > 2 ^ 64 - 1) ∧
    (let s := { active with len := BitVec.ofNat 64 (2 ^ 64 - 1) }
     s.mover = .host ∧ s.pend = none ∧ s.phase = .active) := by decide +kernel

/-- DecodeAcceptsExactlyLegalWords: an illegal word, with CORE free. -/
theorem witness_DecodeAcceptsExactlyLegalWords :
    (¬ ∃ i, decode 0x00000007 = .ok i) ∧ State.reset.pend = none :=
  ⟨fun ⟨_, h⟩ => (by cases h), rfl⟩

/-- UpdateAppendsItsBytes: the last place that does not fill the buffer, the first that does, and one that wraps. -/
theorem witness_UpdateAppendsItsBytes :
    Instr.op .update4 = 0x2 ∧
    ((engineReady .update4 7 0 (activeA 59)).cur.toNat + byteCount .update4 = 63) ∧
    ((engineReady .update4 7 0 (activeA 60)).cur.toNat + byteCount .update4 = 64) ∧
    ((engineReady .update4 7 0 (activeA 63)).cur.toNat + byteCount .update4 = 67) := by decide +kernel

/-- FINAL and STRETCH at the two sides of the boundary of R109, and at the last place of the buffer. -/
theorem witness_final_cursor :
    (engineReady .final 0 0 (activeA 55)).cur.toNat = 55 ∧ (engineReady .final 0 0 (activeA 56)).cur.toNat = 56 ∧
    (engineReady .stretch 0 0 (activeA 63)).cur.toNat = 63 := by decide

/-- StretchOfCountZeroIsFinal. -/
theorem witness_StretchOfCountZeroIsFinal :
    (engineReady .stretch 0 0 activeAbc).mover = .engine ∧
    (engineReady .stretch 0 0 activeAbc).pend = some { cmd := .stretch, data := 0, iter := 0 } := ⟨rfl, rfl⟩

/-- CursorOutsideTheBufferStops. -/
theorem witness_CursorOutsideTheBufferStops :
    let s := { engineReady .update1 0 0 active with cur := 64 }
    needsInstance .update1 = true ∧ Instr.update1 ≠ .update0 ∧ s.mover = .engine ∧
      s.pend = some { cmd := .update1, data := 0, iter := 0 } ∧ 64 ≤ s.cur.toNat := by decide

/-- AccessesDecodeTheRegisterMap: every clause that has a premise. -/
theorem witness_AccessesDecodeTheRegisterMap :
    (AccessSize.one ≠ .four ∨ (0x04 : Offset).toNat % 4 ≠ 0) ∧ (AccessSize.four ≠ .four ∨ (0x3F : Offset).toNat % 4 ≠ 0) ∧
    State.reset.pend = none ∧ (hostWhileBusy []).busy = true ∧
    (0x20 ≤ (0x20 : Offset).toNat ∧ (0x20 : Offset).toNat % 4 = 0) ∧ (0x20 ≤ (0x3C : Offset).toNat ∧ (0x3C : Offset).toNat % 4 = 0) ∧
    ((0x04 : Offset).toNat % 4 = 0 ∧ (0x04 : Offset) ∉ ([0x00, 0x08, 0x0C] : List Offset)) ∧
    ((0x3C : Offset).toNat % 4 = 0 ∧ (0x3C : Offset) ∉ ([0x00, 0x08, 0x0C] : List Offset)) := by decide

/-- UpdateIgnoresTheUnusedDataBytes: two snapshots that differ beyond the first byte. -/
theorem witness_UpdateIgnoresTheUnusedDataBytes :
    Instr.op .update1 = 0x2 ∧
    (0x61626364 : Word).toNat / 2 ^ (32 - 8 * byteCount .update1) = (0x61FFFFFF : Word).toNat / 2 ^ (32 - 8 * byteCount .update1) := by
  decide

/-- StepRunsTheDecodedCommand and StepPerformsTheNextAccess, clause by clause. -/
theorem witness_step_clauses :
    (let s := State.reset.withFetchWord 32 0x12
     s.mover = .host ∧ s.prog = .write 0x00 .four 0x00000012 :: [] ∧ decode 0x00000012 = .ok .update1) ∧
    ((hostWith [.read 0x04 .four] active).mover = .host ∧ (hostWith [.read 0x04 .four] active).prog = .read 0x04 .four :: []) ∧
    ((hostWith [.read 0x02 .four] active).mover = .host ∧ (regRead 0x02 .four (hostWith [.read 0x02 .four] active)).1.error = true) ∧
    (badAccess 0x04 .four = false ∧ badAccess 0x04 .one = true) ∧
    ((hostWith [.checkok] active).mover = .host ∧ (hostWith [.checkok] active).prog = .checkok :: []) ∧
    ((hostWith [.checkdone 8] doneAbc).mover = .host ∧ (hostWith [.checkdone 8] doneAbc).prog = .checkdone 8 :: [] ∧
      doneAbc.pend = none ∧ doneAbc.err = false ∧ doneAbc.phase = .done ∧ active.phase ≠ .done) ∧
    ((hostWith [] active).mover = .host ∧ (hostWith [] active).prog = []) ∧
    (engineReady .init 0 0 active).mover = .engine := by decide

/-- EngineHasNoStepWhenNothingIsPending and ResetAbandonsThePendingCommand. -/
theorem witness_idle_engine_and_reset :
    ({ active with sched := [.engine] }).mover = .engine ∧ ({ active with sched := [.engine] }).pend = none ∧
    ({ engineReady .final 0 0 active with sched := [.reset] }).mover = .reset := ⟨rfl, rfl, rfl⟩

/-- WaitPollsUntilNotBusy, both clauses. -/
theorem witness_WaitPollsUntilNotBusy :
    ((hostWhileBusy [.wait]).mover = .host ∧ (hostWhileBusy [.wait]).prog = .wait :: [] ∧ (hostWhileBusy [.wait]).busy = true) ∧
    ((hostWith [.wait] active).mover = .host ∧ (hostWith [.wait] active).prog = .wait :: [] ∧ (hostWith [.wait] active).pend = none) := by
  decide

/-- InstancesShareNoState: a system of two instances, the first of which makes a step; and an address of the second's window, whatever P_BASE is. -/
theorem witness_InstancesShareNoState :
    (∃ sys', systemStep 0 [State.reset.withFetchWord 32 0, active] = .next sys') ∧ (1 : Nat) ≠ 0 ∧
    (∃ t, step (State.reset.withFetchWord 32 0) = .next t) ∧ windowOffset 1 (Config.pBase 1 + 63) = some 0x3F := by
  refine ⟨⟨_, rfl⟩, by decide, ⟨_, rfl⟩, ?_⟩
  unfold windowOffset
  rw [if_pos (by omega), Nat.add_sub_cancel_left]
  rfl

/-- The invariant in the phase DONE: "abc" after FINAL (program P1), with the digest of the official vector. -/
theorem witness_inv_done : doneAbc.Inv :=
  ⟨by decide, fun h => (by cases h), fun _ => ⟨rfl, rfl, rfl, fun h => (by cases h),
    fun _ => ⟨[0x61, 0x62, 0x63], 0, by decide, by decide, by decide +kernel⟩⟩, rfl, by decide, fun p hp => (by cases hp)⟩

/-- What the message clause of the invariant asks of "abc" absorbed. -/
theorem activeAbc_absorbed : activeAbc.Absorbed [0x61, 0x62, 0x63] :=
  ⟨by decide, (hashBlocks_zero _).symm, by decide, by decide +kernel⟩

theorem active_absorbed : active.Absorbed [] :=
  ⟨by decide, (hashBlocks_zero _).symm, by decide, fun i hi => absurd hi (Nat.not_lt_zero i)⟩

/-- A pending command of each kind in a state that meets the invariant. -/
theorem witness_inv_pending (i : Instr) (hi : goesThroughPend i = true) :
    (engineReady i 0x61626364 5 activeAbc).Inv := by
  refine ⟨show activeAbc.cur.toNat < 64 by decide,
    fun _ => ⟨show activeAbc.cur.toNat = activeAbc.len.toNat / 8 % 64 by decide, show activeAbc.len.toNat % 8 = 0 by decide, rfl,
      [0x61, 0x62, 0x63], activeAbc_absorbed.1, activeAbc_absorbed.2, activeAbc_absorbed.3, activeAbc_absorbed.4⟩,
    fun h => absurd rfl h, rfl, show activeAbc.err = false ↔ activeAbc.cause = .none by decide, ?_⟩
  intro p hp
  cases hp
  exact ⟨hi, fun _ => rfl, fun _ => show negativeCount 5 = false by decide, by cases i <;> decide, rfl, rfl⟩

/-- ... and the engine's step of it gives a next state: PhaseFollowsTheLifecycle, FirstErrorIsKeptUntilCleared, LengthNeverDecreasesWithinAnInstance, EveryStepKeepsTheInvariant. -/
theorem witness_step_of_pending (i : Instr) (hi : goesThroughPend i = true) :
    ∃ t, (engineReady i 0x61626364 5 activeAbc).Inv ∧ step (engineReady i 0x61626364 5 activeAbc) = .next t ∧
      (engineReady i 0x61626364 5 activeAbc).mover = .engine ∧
      (engineReady i 0x61626364 5 activeAbc).pend = some { cmd := i, data := 0x61626364, iter := 5 } :=
  ⟨_, witness_inv_pending i hi, step_engine _ _ rfl rfl (show activeAbc.cur.toNat < 64 by decide), rfl, rfl⟩

/-- The host's move in a state that meets the invariant, with an error recorded: PhaseFollowsTheLifecycle, FirstErrorIsKeptUntilCleared, OperandRegistersAreWrittenByTheirRulesOnly, HashStateIsWrittenByEngineStepsOnly. -/
theorem witness_host_step :
    ∃ t, (hostWith [.write 0x0C .four 7] { State.reset with err := true, cause := .sequence }).Inv ∧
      step (hostWith [.write 0x0C .four 7] { State.reset with err := true, cause := .sequence }) = .next t ∧
      (hostWith [.write 0x0C .four 7] { State.reset with err := true, cause := .sequence }).mover = .host ∧
      (hostWith [.write 0x0C .four 7] { State.reset with err := true, cause := .sequence }).err = true :=
  ⟨_, ⟨by decide, fun h => (by cases h), fun _ => ⟨rfl, rfl, rfl, fun _ => ⟨rfl, rfl⟩, fun h => (by cases h)⟩, rfl, by decide, fun p hp => (by cases hp)⟩,
    step_host _ rfl, rfl, rfl⟩

/-- HostCannotReadTheHashState: a read of STATUS while a command is pending draws nothing. -/
theorem witness_HostCannotReadTheHashState :
    (hostWhileBusy [.read 0x04 .four]).mover = .host ∧
    (stepped (hostWhileBusy [.read 0x04 .four])).map (·.draws) = some (hostWhileBusy [.read 0x04 .four]).draws := by
  decide +kernel

/-- The engine's move with nothing pending, in a state that meets the invariant: PhaseFollowsTheLifecycle. -/
theorem witness_idle_engine_step :
    ∃ t, ({ active with sched := [.engine] }).Inv ∧ step { active with sched := [.engine] } = .next t ∧
      ({ active with sched := [.engine] }).mover = .engine ∧ ({ active with sched := [.engine] }).pend = none :=
  ⟨_, ⟨by decide, fun _ => ⟨by decide, by decide, by decide, [], active_absorbed.1, active_absorbed.2, active_absorbed.3, active_absorbed.4⟩, fun h => absurd rfl h, rfl, by decide, fun p hp => (by cases hp)⟩,
    step_engine_idle _ rfl rfl, rfl, rfl⟩

/-- PendingCommandIsPerformed: the host is scheduled before the engine. -/
theorem witness_PendingCommandIsPerformed :
    ({ engineReady .final 0x61626364 5 activeAbc with sched := [.host, .host, .engine] }).Inv ∧
    ({ engineReady .final 0x61626364 5 activeAbc with sched := [.host, .host, .engine] }).pend =
      some { cmd := .final, data := 0x61626364, iter := 5 } ∧
    Agent.reset ∉ ({ engineReady .final 0x61626364 5 activeAbc with sched := [.host, .host, .engine] }).sched := by
  have h := witness_inv_pending .final rfl
  exact ⟨⟨h.cursor, fun ha => ⟨(h.active ha).1, (h.active ha).2, (h.active ha).3,
      (h.active ha).4.imp fun _ a => ⟨a.1, a.2, a.3, a.4⟩⟩, fun hn => absurd rfl hn, rfl, h.error,
    fun p hp => ⟨(h.pending p hp).1, (h.pending p hp).2, (h.pending p hp).3, (h.pending p hp).4, (h.pending p hp).5,
      (h.pending p hp).6⟩⟩, rfl, by decide⟩

/-- UpdateExtendsTheAbsorbedMessage, FinalComputesSha256OfTheMessage, StretchComputesTheIteratedDigest: a state that has absorbed 60 bytes, where UPDATE 4 just fills the buffer. -/
theorem witness_absorbed :
    (engineReady .update4 0x61616161 3 (activeA 60)).Absorbed (List.replicate 60 0x61) ∧
    (engineReady .update4 0x61616161 3 (activeA 60)).len.toNat + 8 * byteCount .update4 ≤ 2 ^ 64 - 1 :=
  ⟨⟨by decide, (hashBlocks_zero _).symm, by decide, by decide +kernel⟩, by decide⟩

/-- ... and one that has absorbed nothing. -/
theorem witness_absorbed_nothing : (engineReady .final 0 0 active).Absorbed [] :=
  ⟨by decide, (hashBlocks_zero _).symm, by decide, fun i hi => absurd hi (Nat.not_lt_zero i)⟩

/-- StaleBufferBytesDoNotMatter: two buffers that differ at the cursor only. -/
theorem witness_StaleBufferBytesDoNotMatter :
    ∀ j : Fin 64, j.val < (engineReady .final 0 0 activeAbc).cur.toNat → (activeAbc.buf.set 3 0xFF)[j] = activeAbc.buf[j] := by
  decide +kernel

/-- PaddingIsLeast at the boundary: 55 bytes need no zero byte, 56 need 63. -/
theorem witness_PaddingIsLeast : padZeros 55 = 0 ∧ padZeros 56 = 63 ∧ (0 : Nat) < padZeros 56 := by decide

end Sys2Proof.Tests
end

section
/-! PROOFS. What a rotation does to each bit of a word (R9). -/

namespace Sys2Proof.Machine

/-- R9: ROTR moves bit `(i + n) mod 32` to bit `i`. The right shift supplies the bits that stay inside
the word, the left shift those that wrap round. -/
theorem getLsbD_rotr (x : Word) {n i : Nat} (hn : n < 32) (hi : i < 32) :
    (rotr x n).getLsbD i = x.getLsbD ((i + n) % 32) := by
  simp only [rotr, BitVec.getLsbD_or, BitVec.getLsbD_ushiftRight, BitVec.getLsbD_shiftLeft]
  by_cases hw : i + n < 32
  case pos =>
    have hleft : i < 32 - n := by omega
    simp [Nat.mod_eq_of_lt hw, hleft, Nat.add_comm n i]
  case neg =>
    have hright : x.getLsbD (n + i) = false := BitVec.getLsbD_of_ge x _ (by omega)
    have hwrap : (i + n) % 32 = i - (32 - n) := by omega
    have hleft : ¬ i < 32 - n := by omega
    simp [hright, hwrap, hleft, hi]

/-- Settles O4: the formulas are the definitions of `rotr` and `shr`; the bits are `getLsbD_rotr`. -/
theorem rotrIsCircularRightRotation : Obligations.RotrIsCircularRightRotation :=
  fun x _ _ hn => ⟨rfl, rfl, fun _ hi => getLsbD_rotr x hn hi⟩

end Sys2Proof.Machine
end

section
/-! PROOFS. What a move of the host can do to CORE, said once (R52, R57, R207, R208): the engine's elements never change, and the others change in one of five ways. -/

namespace Sys2Proof.Machine

/-- Two states agree on what the engine works on: H, BUF, CUR, LEN, DIG, PHASE and the transients. -/
structure SameEngine (t s : State) : Prop where
  h : t.h = s.h
  buf : t.buf = s.buf
  cur : t.cur = s.cur
  len : t.len = s.len
  dig : t.dig = s.dig
  phase : t.phase = s.phase
  tr : t.tr = s.tr

/-- Two states agree on every element of CORE; what stands outside CORE may differ (log 17). -/
structure SameCore (t s : State) : Prop extends SameEngine t s where
  err : t.err = s.err
  cause : t.cause = s.cause
  pend : t.pend = s.pend
  dataIn : t.dataIn = s.dataIn
  iter : t.iter = s.iter

theorem SameEngine.trans {t u s : State} (htu : SameEngine t u) (hus : SameEngine u s) : SameEngine t s :=
  ⟨htu.h.trans hus.h, htu.buf.trans hus.buf, htu.cur.trans hus.cur, htu.len.trans hus.len, htu.dig.trans hus.dig,
    htu.phase.trans hus.phase, htu.tr.trans hus.tr⟩

theorem SameCore.trans {t u s : State} (htu : SameCore t u) (hus : SameCore u s) : SameCore t s :=
  ⟨htu.toSameEngine.trans hus.toSameEngine, htu.err.trans hus.err, htu.cause.trans hus.cause,
    htu.pend.trans hus.pend, htu.dataIn.trans hus.dataIn, htu.iter.trans hus.iter⟩

/-- A change of what stands outside CORE. -/
theorem sameCore_outside (s : State) (sched : List Agent) (prog : List HostOp) (handlers : List (List HostOp))
    (log : List BusResponse) (draws : Nat) (unmet : Bool) :
    SameCore { s with sched := sched, prog := prog, handlers := handlers, log := log, draws := draws, unmet := unmet } s :=
  ⟨⟨rfl, rfl, rfl, rfl, rfl, rfl, rfl⟩, rfl, rfl, rfl, rfl, rfl⟩

theorem sameCore_refl (s : State) : SameCore s s := sameCore_outside s ..

theorem complete_sameCore (r : BusResponse) (rest : List HostOp) (s : State) : SameCore (complete r rest s) s :=
  sameCore_outside s ..

theorem advance_sameCore (s : State) : SameCore (advance s) s := sameCore_outside s ..

theorem raiseError_sameEngine (c : Cause) (s : State) : SameEngine (raiseError c s) s := by
  constructor <;> simp

/-- The effects a move of the host can have on CORE. -/
inductive HostEffect (s : State) : State → Prop where
  /-- a read, a poll, a NOP, a write that is ignored -/
  | unchanged : HostEffect s s
  /-- an error is raised (R203) -/
  | raised (c : Cause) (hcause : c ≠ .none) : HostEffect s (raiseError c s)
  /-- DATA_IN is written (R30, R207) -/
  | dataIn (v : Word) (rest : List HostOp) (hfree : s.pend = none) (hprog : s.prog = .write 0x08 .four v :: rest) :
      HostEffect s { s with dataIn := v }
  /-- ITER is written (R31, R207) -/
  | iter (v : Word) (rest : List HostOp) (hfree : s.pend = none) (hprog : s.prog = .write 0x0C .four v :: rest) :
      HostEffect s { s with iter := v }
  /-- CLRERR takes effect (R182) -/
  | cleared (v : Word) (rest : List HostOp) (hfree : s.pend = none) (hprog : s.prog = .write 0x00 .four v :: rest)
      (hword : decode v = .ok .clrerr) : HostEffect s (clearError s)
  /-- a command passes its checks and is accepted into PEND (R208) -/
  | accepted (i : Instr) (hfree : s.pend = none) (hkind : goesThroughPend i = true) (hcheck : commandCheck i s = none) :
      HostEffect s (accept i s)

theorem regRead_effect (off : Offset) (size : AccessSize) (r : BusResponse) (rest : List HostOp) (s : State) :
    ∃ u, HostEffect s u ∧ SameCore (complete r rest (regRead off size s).2) u := by
  rcases regRead_cases off size s with ⟨-, h⟩ | ⟨-, h | ⟨-, h⟩⟩ <;> rw [h]
  · exact ⟨_, .raised .badAccess (by decide), complete_sameCore ..⟩
  · exact ⟨s, .unchanged, complete_sameCore ..⟩
  · exact ⟨s, .unchanged, sameCore_outside s ..⟩

theorem writeNext_effect {off : Offset} {size : AccessSize} {v : Word} {rest : List HostOp} {s : State}
    (hprog : s.prog = .write off size v :: rest) : HostEffect s (writeNext off size v s) := by
  rcases writeNext_cases off size v s with
    ⟨c, hc, h⟩ | h | ⟨hfree, h, rfl, rfl⟩ | ⟨hfree, h, rfl, rfl⟩ | ⟨hfree, rfl, rfl, i, hi, ⟨rfl, h⟩ | ⟨hkind, hcheck, h⟩⟩ <;>
    rw [h]
  · exact .raised c hc
  · exact .unchanged
  · exact .dataIn v rest hfree hprog
  · exact .iter v rest hfree hprog
  · exact .cleared v rest hfree hprog hi
  · exact .accepted i hfree hkind hcheck

/-- All that a move of the host can do to CORE. -/
theorem hostNext_effect (s : State) : ∃ u, HostEffect s u ∧ SameCore (hostNext s) u := by
  unfold hostNext
  cases hprog : s.prog with
  | nil => exact ⟨s, .unchanged, sameCore_refl s⟩
  | cons op rest =>
    cases op with
    | read off size => exact regRead_effect off size _ rest s
    | write off size v => exact ⟨_, writeNext_effect hprog, complete_sameCore ..⟩
    | wait =>
      dsimp only
      split
      · exact ⟨s, .unchanged, sameCore_refl s⟩
      · exact ⟨s, .unchanged, complete_sameCore ..⟩
    | checkok | checkdone => exact ⟨s, .unchanged, sameCore_outside s ..⟩

theorem HostEffect.sameEngine {s u : State} (hu : HostEffect s u) : SameEngine u s := by
  cases hu with
  | raised c => exact raiseError_sameEngine c s
  | unchanged | dataIn | iter | cleared | accepted => exact ⟨rfl, rfl, rfl, rfl, rfl, rfl, rfl⟩

/-- No move of the host writes an element the engine works on (R63). -/
theorem hostNext_sameEngine (s : State) : SameEngine (hostNext s) s := by
  obtain ⟨u, hu, hcore⟩ := hostNext_effect s
  exact hcore.toSameEngine.trans hu.sameEngine

/-! ### The host's move and the elements no register shows -/

/-- The state with other H, BUF, CUR and transients: what no register reads (R21, R32). -/
def withHidden (h : Vector Word 8) (buf : Vector Byte 64) (cur : BitVec 7) (tr : Transients) (s : State) : State :=
  { s with h := h, buf := buf, cur := cur, tr := tr }

section Hidden
variable (h : Vector Word 8) (buf : Vector Byte 64) (cur : BitVec 7) (tr : Transients)

theorem raiseError_withHidden (c : Cause) (s : State) :
    raiseError c (withHidden h buf cur tr s) = withHidden h buf cur tr (raiseError c s) := by
  have herr : (withHidden h buf cur tr s).err = s.err := rfl
  simp only [raiseError, herr]
  split <;> rfl

theorem issue_withHidden (i : Instr) (s : State) :
    issue i (commandCheck i) (withHidden h buf cur tr s) = withHidden h buf cur tr (issue i (commandCheck i) s) := by
  have hcheck : commandCheck i (withHidden h buf cur tr s) = commandCheck i s := by cases i <;> rfl
  have hbusy : (withHidden h buf cur tr s).busy = s.busy := rfl
  simp only [issue, hbusy, hcheck]
  split
  · exact raiseError_withHidden ..
  · split
    · exact raiseError_withHidden ..
    · rfl

theorem issueAtOnce_withHidden (effect : State → State) (s : State)
    (heffect : effect (withHidden h buf cur tr s) = withHidden h buf cur tr (effect s)) :
    issueAtOnce effect (withHidden h buf cur tr s) = withHidden h buf cur tr (issueAtOnce effect s) := by
  have hbusy : (withHidden h buf cur tr s).busy = s.busy := rfl
  simp only [issueAtOnce, hbusy]
  split
  · exact raiseError_withHidden ..
  · exact heffect

theorem issued_withHidden (i : Instr) (s : State) :
    issued i (withHidden h buf cur tr s) = withHidden h buf cur tr (issued i s) := by
  cases i with
  | nop => exact issueAtOnce_withHidden h buf cur tr id s rfl
  | clrerr => exact issueAtOnce_withHidden h buf cur tr clearError s rfl
  | init | update0 | update1 | update2 | update3 | update4 | final | stretch | zeroize =>
    simp only [issued, issue_withHidden]

theorem issueIllegal_withHidden (s : State) :
    issueIllegal (withHidden h buf cur tr s) = withHidden h buf cur tr (issueIllegal s) := by
  have hbusy : (withHidden h buf cur tr s).busy = s.busy := rfl
  simp only [issueIllegal, hbusy]
  split <;> exact raiseError_withHidden ..

theorem writeRegister_withHidden (off : Offset) (v : Word) (s : State) :
    writeRegister off v (withHidden h buf cur tr s) = withHidden h buf cur tr (writeRegister off v s) := by
  have hbusy : (withHidden h buf cur tr s).busy = s.busy := rfl
  simp only [writeRegister, hbusy]
  split_ifs
  · exact raiseError_withHidden ..
  · rfl
  · exact raiseError_withHidden ..
  · rfl
  · rfl

theorem writeNext_withHidden (off : Offset) (size : AccessSize) (v : Word) (s : State) :
    writeNext off size v (withHidden h buf cur tr s) = withHidden h buf cur tr (writeNext off size v s) := by
  simp only [writeNext]
  split_ifs
  · exact raiseError_withHidden ..
  · cases decode v with
    | ok i => exact issued_withHidden ..
    | error => exact issueIllegal_withHidden ..
  · exact writeRegister_withHidden ..

theorem readUnlessBusy_withHidden (v : Word) (s : State) :
    readUnlessBusy v (withHidden h buf cur tr s) =
      ((readUnlessBusy v s).1, withHidden h buf cur tr (readUnlessBusy v s).2) := by
  have hbusy : (withHidden h buf cur tr s).busy = s.busy := rfl
  simp only [readUnlessBusy, hbusy]
  split <;> rfl

theorem readRegister_withHidden (off : Offset) (s : State) :
    readRegister off (withHidden h buf cur tr s) =
      ((readRegister off s).1, withHidden h buf cur tr (readRegister off s).2) := by
  simp only [readRegister]
  split_ifs
  · rfl
  · rfl
  · exact readUnlessBusy_withHidden ..
  · exact readUnlessBusy_withHidden ..
  · exact readUnlessBusy_withHidden ..
  · rfl

theorem regRead_withHidden (off : Offset) (size : AccessSize) (s : State) :
    regRead off size (withHidden h buf cur tr s) =
      ((regRead off size s).1, withHidden h buf cur tr (regRead off size s).2) := by
  simp only [regRead, readRegister_withHidden, raiseError_withHidden]
  split <;> rfl

theorem hostNext_withHidden (s : State) :
    hostNext (withHidden h buf cur tr s) = withHidden h buf cur tr (hostNext s) := by
  have hprog : (withHidden h buf cur tr s).prog = s.prog := rfl
  have hbusy : (withHidden h buf cur tr s).busy = s.busy := rfl
  unfold hostNext
  rw [hprog]
  cases s.prog with
  | nil => rfl
  | cons op rest =>
    cases op with
    | read off size => simp only [regRead_withHidden]; rfl
    | write off size v => simp only [writeNext_withHidden]; rfl
    | wait => simp only [hbusy]; split <;> rfl
    | checkok => rfl
    | checkdone guarded => rfl

end Hidden

/-- Settles O45: the host's move commutes with any change of what no register shows. In the model this holds
also of a move that draws an unspecified value, so that premise is not used. -/
theorem hostCannotReadTheHashState : Obligations.HostCannotReadTheHashState := by
  intro s t h buf cur tr hhost hstep _
  rw [step_host s hhost] at hstep
  cases hstep
  have hmover : (withHidden h buf cur tr s).mover = .host := hhost
  calc step (withHidden h buf cur tr s)
      = .next (advance (hostNext (withHidden h buf cur tr s))) := step_host _ hmover
    _ = .next (withHidden h buf cur tr (advance (hostNext s))) := by rw [hostNext_withHidden]; rfl

end Sys2Proof.Machine
end

section
/-! PROOFS. What the engine step of a pending command can do to CORE, and what a whole step can do, said once (R62, R103, R106, R161); then the rules of 10_state.md about who writes each element. -/

namespace Sys2Proof.Machine

/-! ### The engine step -/

/-- UPDATE's engine step writes H, BUF, CUR, LEN and the transients, and empties PEND. -/
theorem performUpdate_frame (nb : Nat) (data : Word) (s : State) :
    performUpdate nb data s =
      { s with
        h := (absorbAll (updateBytes nb data) s).h, buf := (absorbAll (updateBytes nb data) s).buf
        cur := (absorbAll (updateBytes nb data) s).cur, tr := (absorbAll (updateBytes nb data) s).tr
        len := s.len + BitVec.ofNat 64 (8 * nb), pend := none } := by
  rw [performUpdate, absorbAll_frame]
  rfl

@[simp] theorem performUpdate_len (nb : Nat) (data : Word) (s : State) :
    (performUpdate nb data s).len = s.len + BitVec.ofNat 64 (8 * nb) := by
  rw [performUpdate_frame]

@[simp] theorem performUpdate_dig (nb : Nat) (data : Word) (s : State) : (performUpdate nb data s).dig = s.dig := by
  rw [performUpdate_frame]

@[simp] theorem performUpdate_phase (nb : Nat) (data : Word) (s : State) : (performUpdate nb data s).phase = s.phase := by
  rw [performUpdate_frame]

@[simp] theorem performUpdate_dataIn (nb : Nat) (data : Word) (s : State) : (performUpdate nb data s).dataIn = s.dataIn := by
  rw [performUpdate_frame]

@[simp] theorem performUpdate_iter (nb : Nat) (data : Word) (s : State) : (performUpdate nb data s).iter = s.iter := by
  rw [performUpdate_frame]

@[simp] theorem performUpdate_err (nb : Nat) (data : Word) (s : State) : (performUpdate nb data s).err = s.err := by
  rw [performUpdate_frame]

@[simp] theorem performUpdate_cause (nb : Nat) (data : Word) (s : State) : (performUpdate nb data s).cause = s.cause := by
  rw [performUpdate_frame]

/-- LEN does not wrap when the check of R206 was passed (R103). -/
theorem performUpdate_len_toNat (nb : Nat) (data : Word) (s : State) (hroom : s.len.toNat + 8 * nb < 2 ^ 64) :
    (performUpdate nb data s).len.toNat = s.len.toNat + 8 * nb := by
  rw [performUpdate_len, BitVec.toNat_add, BitVec.toNat_ofNat]
  omega

/-- One re-hash of STRETCH: the compression of BLOCK_i from IV (R162, R163). -/
def rehash (d : Vector Word 8) : Vector Word 8 := compressWords initialHash (stretchBlock d)

/-- What FINAL and STRETCH leave, with this digest in the latch (R106, R111, R112, R161). -/
def digested (d : Vector Word 8) (s : State) : State :=
  { s with
    h := Vector.replicate 8 0, buf := Vector.replicate 64 0, cur := 0, dig := d, dataIn := 0, tr := .zero
    phase := .done, pend := none }

theorem performFinal_digested (s : State) : performFinal s = digested (padAndCompress s).h s := by
  rw [performFinal, padAndCompress_frame]
  rfl

theorem performStretch_digested (iter : Word) (s : State) :
    performStretch iter s = digested (rehash^[(stretchCount iter).toNat] (padAndCompress s).h) s := by
  rw [performStretch, stretchIterations, stretchLoop_eq, padAndCompress_frame]
  rfl

/-- The effects the engine step of the pending command p can have on CORE. -/
inductive EngineEffect (p : Pending) (s : State) : State → Prop where
  | init (hcmd : p.cmd = .init) : EngineEffect p s (performInit s)
  | update (hcmd : p.cmd.op = 0x2) : EngineEffect p s (performUpdate (byteCount p.cmd) p.data s)
  /-- FINAL re-hashes the digest 0 times, STRETCH as often as its count says (R165) -/
  | digest (n : Nat) (hcmd : p.cmd = .final ∨ p.cmd = .stretch) (hn : n < 2 ^ 31) :
      EngineEffect p s (digested (rehash^[n] (padAndCompress s).h) s)
  | zeroize (hcmd : p.cmd = .zeroize) : EngineEffect p s (performZeroize s)
  | nop (hcmd : p.cmd = .nop) : EngineEffect p s (finishStep s)
  | clrerr (hcmd : p.cmd = .clrerr) : EngineEffect p s (finishStep (clearError s))

theorem performed_effect (p : Pending) (s : State) : EngineEffect p s (performed p s) := by
  cases hcmd : p.cmd with
  | init => simpa only [performed, hcmd] using .init hcmd
  | update0 | update1 | update2 | update3 | update4 =>
    have hop : p.cmd.op = 0x2 := by rw [hcmd]; rfl
    simpa only [performed, hcmd] using EngineEffect.update hop
  | final =>
    have hdigest : EngineEffect p s (digested (padAndCompress s).h s) := .digest 0 (.inl hcmd) (by decide)
    simpa only [performed, hcmd, performFinal_digested] using hdigest
  | stretch =>
    simpa only [performed, hcmd, performStretch_digested] using
      EngineEffect.digest _ (.inr hcmd) (stretchCount p.iter).isLt
  | zeroize => simpa only [performed, hcmd] using .zeroize hcmd
  | nop => simpa only [performed, hcmd] using .nop hcmd
  | clrerr => simpa only [performed, hcmd] using .clrerr hcmd

/-- No command modifies ITER (R31). -/
theorem EngineEffect.iter {p : Pending} {s u : State} (hu : EngineEffect p s u) : u.iter = s.iter := by
  cases hu with
  | update => exact performUpdate_iter ..
  | init | digest | zeroize | nop | clrerr => rfl

/-! ### The step -/

/-- All that a step which answers a next state can do to CORE. -/
theorem step_effect {s t : State} (hstep : step s = .next t) :
    (s.mover = .reset ∧ SameCore t (hwReset s)) ∨
    (s.mover = .host ∧ ∃ u, HostEffect s u ∧ SameCore t u) ∨
    (s.mover = .engine ∧ s.pend = none ∧ SameCore t s) ∨
    (s.mover = .engine ∧ ∃ p, s.pend = some p ∧ ∃ u, EngineEffect p s u ∧ SameCore t u) := by
  rcases step_cases s t hstep with ⟨hm, rfl⟩ | ⟨hm, rfl⟩ | ⟨hm, hp, rfl⟩ | ⟨hm, p, hp, rfl⟩
  · exact .inl ⟨hm, advance_sameCore _⟩
  · obtain ⟨u, hu, hcore⟩ := hostNext_effect s
    exact .inr (.inl ⟨hm, u, hu, (advance_sameCore _).trans hcore⟩)
  · exact .inr (.inr (.inl ⟨hm, hp, advance_sameCore s⟩))
  · exact .inr (.inr (.inr ⟨hm, p, hp, _, performed_effect p s, advance_sameCore _⟩))

/-- A command that writes BUF[CUR] is performed only with CUR inside the buffer (log 6). -/
theorem step_next_cursor {s t : State} {p : Pending} (hstep : step s = .next t) (hm : s.mover = .engine)
    (hp : s.pend = some p) (hneeds : needsInstance p.cmd = true) (hbytes : p.cmd ≠ .update0) : s.cur.toNat < 64 := by
  by_contra hc
  simp only [step, agentMove, hm, engineTurn, hp, exec_engine_outside s p hm hp hc, if_pos (And.intro hneeds hbytes),
    mapNext] at hstep
  cases hstep

/-! ### Who writes each element -/

/-- Settles O39: a pending command met its check of PHASE at acceptance, and the invariant keeps that. -/
theorem phaseFollowsTheLifecycle : Obligations.PhaseFollowsTheLifecycle := by
  intro s t hinv hstep hreset
  refine ⟨fun hm => ?_, fun hm hp => ?_, fun p hm hp => ?_⟩
  · rw [step_host s hm] at hstep
    cases hstep
    exact (hostNext_sameEngine s).phase
  · rw [step_engine_idle s hm hp] at hstep
    cases hstep
    rfl
  · have hpend := hinv.pending p hp
    have hphase : t.phase = (performed p s).phase := by
      rw [step_engine s p hm hp hinv.cursor] at hstep
      cases hstep
      rfl
    obtain ⟨cmd, data, iter⟩ := p
    cases cmd with
    | init | zeroize => exact hphase
    | update0 | update1 | update2 | update3 | update4 =>
      have hactive := hpend.phase rfl
      exact ⟨hactive, by rw [hphase, performed, performUpdate_phase, hactive]⟩
    | final => exact ⟨hpend.phase rfl, by rw [hphase, performed, performFinal_digested]; rfl⟩
    | stretch => exact ⟨hpend.phase rfl, by rw [hphase, performed, performStretch_digested]; rfl⟩
    | nop | clrerr => exact absurd hpend.kind Bool.false_ne_true

/-- Settles O41: an UPDATE adds to LEN without wrapping, since the invariant keeps the check of R206. -/
theorem lengthNeverDecreasesWithinAnInstance : Obligations.LengthNeverDecreasesWithinAnInstance := by
  intro s t hinv hstep
  rcases step_effect hstep with ⟨hm, -⟩ | ⟨-, u, hu, hcore⟩ | ⟨-, -, hcore⟩ | ⟨hm, p, hp, u, hu, hcore⟩
  · exact .inr (.inl hm)
  · exact .inl (by rw [hcore.len, hu.sameEngine.len])
  · exact .inl (by rw [hcore.len])
  · cases hu with
    | init hcmd => exact .inr (.inr ⟨hm, p, hp, .inl hcmd⟩)
    | zeroize hcmd => exact .inr (.inr ⟨hm, p, hp, .inr hcmd⟩)
    | update hcmd =>
      left
      rw [hcore.len, performUpdate_len_toNat _ _ _ (hinv.pending p hp).room]
      omega
    | digest | nop | clrerr => exact .inl (by rw [hcore.len]; exact le_rfl)

/-- Settles O42, by the effects of a step on DIG. -/
theorem digestLatchIsWrittenByFinalAndStretchOnly : Obligations.DigestLatchIsWrittenByFinalAndStretchOnly := by
  intro s t hstep
  rcases step_effect hstep with ⟨hm, hcore⟩ | ⟨-, u, hu, hcore⟩ | ⟨-, -, hcore⟩ | ⟨hm, p, hp, u, hu, hcore⟩
  · exact .inr (.inl ⟨hm, hcore.dig⟩)
  · exact .inl (hcore.dig.trans hu.sameEngine.dig)
  · exact .inl hcore.dig
  · cases hu with
    | init hcmd => exact .inr (.inr ⟨hm, p, hp, .inl ⟨.inl hcmd, hcore.dig⟩⟩)
    | zeroize hcmd => exact .inr (.inr ⟨hm, p, hp, .inl ⟨.inr hcmd, hcore.dig⟩⟩)
    | digest n hcmd => exact .inr (.inr ⟨hm, p, hp, .inr hcmd⟩)
    | update => exact .inl (hcore.dig.trans (performUpdate_dig ..))
    | nop | clrerr => exact .inl hcore.dig

/-- R31: ITER is written by reset and by the host's write to it. -/
theorem step_iter {s t : State} (hstep : step s = .next t) :
    t.iter = s.iter ∨ (s.mover = .reset ∧ t.iter = 0) ∨
      (s.mover = .host ∧ s.pend = none ∧ ∃ v rest, s.prog = .write 0x0C .four v :: rest ∧ t.iter = v) := by
  rcases step_effect hstep with ⟨hm, hcore⟩ | ⟨hm, u, hu, hcore⟩ | ⟨-, -, hcore⟩ | ⟨-, p, -, u, hu, hcore⟩
  · exact .inr (.inl ⟨hm, hcore.iter⟩)
  · cases hu with
    | iter v rest hfree hprog => exact .inr (.inr ⟨hm, hfree, v, rest, hprog, hcore.iter⟩)
    | raised => exact .inl (hcore.iter.trans (raiseError_iter ..))
    | unchanged | dataIn | cleared | accepted => exact .inl hcore.iter
  · exact .inl hcore.iter
  · exact .inl (hcore.iter.trans hu.iter)

/-- R30: DATA_IN is written by reset, by the host's write to it, and by the scrub of FINAL, STRETCH and ZEROIZE. -/
theorem step_dataIn {s t : State} (hstep : step s = .next t) :
    t.dataIn = s.dataIn ∨ (s.mover = .reset ∧ t.dataIn = 0) ∨
      (s.mover = .host ∧ s.pend = none ∧ ∃ v rest, s.prog = .write 0x08 .four v :: rest ∧ t.dataIn = v) ∨
      (s.mover = .engine ∧ t.dataIn = 0 ∧
        ∃ p, s.pend = some p ∧ (p.cmd = .final ∨ p.cmd = .stretch ∨ p.cmd = .zeroize)) := by
  rcases step_effect hstep with ⟨hm, hcore⟩ | ⟨hm, u, hu, hcore⟩ | ⟨-, -, hcore⟩ | ⟨hm, p, hp, u, hu, hcore⟩
  · exact .inr (.inl ⟨hm, hcore.dataIn⟩)
  · cases hu with
    | dataIn v rest hfree hprog => exact .inr (.inr (.inl ⟨hm, hfree, v, rest, hprog, hcore.dataIn⟩))
    | raised => exact .inl (hcore.dataIn.trans (raiseError_dataIn ..))
    | unchanged | iter | cleared | accepted => exact .inl hcore.dataIn
  · exact .inl hcore.dataIn
  · cases hu with
    | digest n hcmd => exact .inr (.inr (.inr ⟨hm, hcore.dataIn, p, hp, hcmd.imp_right .inl⟩))
    | zeroize hcmd => exact .inr (.inr (.inr ⟨hm, hcore.dataIn, p, hp, .inr (.inr hcmd)⟩))
    | update => exact .inl (hcore.dataIn.trans (performUpdate_dataIn ..))
    | init | nop | clrerr => exact .inl hcore.dataIn

/-- Settles O43: one clause for each register. -/
theorem operandRegistersAreWrittenByTheirRulesOnly : Obligations.OperandRegistersAreWrittenByTheirRulesOnly :=
  fun _ _ hstep => ⟨step_iter hstep, step_dataIn hstep⟩

theorem updateBytes_length (nb : Nat) (data : Word) : (updateBytes nb data).length = nb := by
  simp [updateBytes]

theorem byteCount_le (i : Instr) : byteCount i ≤ 4 := by
  cases i <;> decide

theorem needsInstance_of_update {i : Instr} (hop : i.op = 0x2) : needsInstance i = true := by
  revert hop
  cases i <;> decide

/-- UPDATE compresses once if its bytes fill the buffer, and leaves H otherwise (R104). -/
theorem performUpdate_h_cases (nb : Nat) (data : Word) (s : State) (hcur : s.cur.toNat < 64) (hnb : nb < 64) :
    (performUpdate nb data s).h = s.h ∨
      (64 ≤ s.cur.toNat + nb ∧ ∃ block, (performUpdate nb data s).h = compressWords s.h block) := by
  have hlen := updateBytes_length nb data
  by_cases hroom : s.cur.toNat + nb < 64
  · left
    rw [performUpdate, absorbAll_room _ s (by omega)]
    rfl
  · right
    refine ⟨by omega, written s.buf s.cur.toNat (updateBytes nb data), ?_⟩
    rw [performUpdate, absorbAll_wrap _ s hcur (by omega) (by omega)]
    rfl

/-- Settles O44. An UPDATE with bytes stops when CUR is outside the buffer, and UPDATE 0 never writes H. -/
theorem hashStateIsWrittenByEngineStepsOnly : Obligations.HashStateIsWrittenByEngineStepsOnly := by
  intro s t hstep
  rcases step_effect hstep with ⟨hm, hcore⟩ | ⟨-, u, hu, hcore⟩ | ⟨-, -, hcore⟩ | ⟨hm, p, hp, u, hu, hcore⟩
  · exact .inr (.inl ⟨hm, hcore.h⟩)
  · exact .inl (hcore.h.trans hu.sameEngine.h)
  · exact .inl hcore.h
  · cases hu with
    | init hcmd => exact .inr (.inr ⟨hm, p, hp, .inl ⟨hcmd, hcore.h⟩⟩)
    | digest n hcmd => exact .inr (.inr ⟨hm, p, hp, .inr (.inr ⟨hcmd.imp_right .inl, hcore.h⟩)⟩)
    | zeroize hcmd => exact .inr (.inr ⟨hm, p, hp, .inr (.inr ⟨.inr (.inr hcmd), hcore.h⟩)⟩)
    | nop | clrerr => exact .inl hcore.h
    | update hop =>
      by_cases hnone : p.cmd = .update0
      · rw [hnone] at hcore
        exact .inl hcore.h
      · have hcur := step_next_cursor hstep hm hp (needsInstance_of_update hop) hnone
        have hnb := byteCount_le p.cmd
        rcases performUpdate_h_cases (byteCount p.cmd) p.data s hcur (by omega) with hh | ⟨hfull, block, hh⟩
        · exact .inl (hcore.h.trans hh)
        · exact .inr (.inr ⟨hm, p, hp, .inr (.inl ⟨hop, hfull, block, hcore.h.trans hh⟩)⟩)

end Sys2Proof.Machine
end

section
/-! PROOFS. The absorbed message: ABSORB extends it byte by byte (R103 to R105), the padded buffer is the last blocks of the padded message (R107 to R110), and a re-hash is SHA256 of the digest bytes (R163). -/

namespace Sys2Proof.Machine

/-! ### ABSORB -/

theorem toList_getD {α : Type} {n : Nat} (v : Vector α n) (i : Nat) (hi : i < n) (d : α) : v.toList.getD i d = v[i] := by
  rw [List.getD_eq_getElem _ _ (by simpa using hi), Vector.getElem_toList]

/-- H, BUF and CUR are those of the message m; `Absorbed` without the clause about LEN, which UPDATE counts only at its end. -/
structure State.Buffered (m : List Byte) (s : State) : Prop where
  hash : s.h = hashBlocks (m.length / 64) m
  cursor : s.cur.toNat = m.length % 64
  rest : ∀ i, i < m.length % 64 → s.buf.toList.getD i 0 = m.getD (64 * (m.length / 64) + i) 0

theorem State.Absorbed.buffered {m : List Byte} {s : State} (hs : s.Absorbed m) : s.Buffered m :=
  ⟨hs.hash, hs.cursor, hs.rest⟩

theorem State.Buffered.cursor_lt {m : List Byte} {s : State} (hs : s.Buffered m) : s.cur.toNat < 64 := by
  have := hs.cursor
  omega

/-- With the next byte put at the cursor, the buffer holds the bytes of the longer message up to that byte. -/
theorem State.Buffered.put_getElem {m : List Byte} {s : State} (hs : s.Buffered m) (b : Byte) (i : Nat)
    (hi : i ≤ m.length % 64) (hi64 : i < 64) :
    (s.buf.setIfInBounds s.cur.toNat b)[i] = (m ++ [b]).getD (64 * (m.length / 64) + i) 0 := by
  rw [Vector.getElem_setIfInBounds, hs.cursor]
  by_cases hlast : m.length % 64 = i
  · rw [if_pos hlast, List.getD_append_right _ _ _ _ (by omega), show 64 * (m.length / 64) + i - m.length = 0 by omega]
    rfl
  · rw [if_neg hlast, List.getD_append _ _ _ _ (by omega), ← hs.rest i (by omega), toList_getD _ _ hi64]

/-- ABSORB of one byte (R104). -/
theorem State.Buffered.absorb {m : List Byte} {s : State} (hs : s.Buffered m) (b : Byte) :
    (absorb s b).Buffered (m ++ [b]) := by
  have hcur := hs.cursor
  have hlength : (m ++ [b]).length = m.length + 1 := by simp
  by_cases hroom : s.cur.toNat + 1 < 64
  · have hdiv : (m ++ [b]).length / 64 = m.length / 64 := by omega
    have hmod : (m ++ [b]).length % 64 = m.length % 64 + 1 := by omega
    rw [absorb_room s b hroom]
    refine ⟨?_, ?_, fun i hi => ?_⟩
    · rw [putByte_h, hdiv, hs.hash, hashBlocks_append _ _ _ (by omega)]
    · rw [putByte_cur, hmod, BitVec.toNat_add]
      simp; omega
    · rw [hdiv, putByte_buf, toList_getD _ _ (by omega), hs.put_getElem b i (by omega)]
  · have hfull : s.cur.toNat = 63 := by omega
    have hdiv : (m ++ [b]).length / 64 = m.length / 64 + 1 := by omega
    have hmod : (m ++ [b]).length % 64 = 0 := by omega
    have hblock : s.buf.setIfInBounds 63 b = messageBlock (m ++ [b]) (m.length / 64) := by
      apply Vector.ext
      intro i hi
      rw [messageBlock_getElem, ← hs.put_getElem b i (by omega) hi]
      simp only [hfull]
    rw [absorb_full s b hfull]
    refine ⟨?_, ?_, fun i hi => ?_⟩
    · rw [hdiv, hashBlocks_succ, hashBlocks_append _ _ _ (by omega), ← hs.hash, ← hblock]
    · rw [hmod]; rfl
    · omega

theorem State.Buffered.absorbAll {m : List Byte} {s : State} (hs : s.Buffered m) (bs : List Byte) :
    (absorbAll bs s).Buffered (m ++ bs) := by
  induction bs generalizing m s with
  | nil => simpa [Machine.absorbAll] using hs
  | cons b bs ih =>
    have hstep := ih (hs.absorb b)
    rwa [List.append_assoc] at hstep

/-- UPDATE nb extends the absorbed message by its nb bytes (R103 to R105). -/
theorem performUpdate_absorbed {m : List Byte} {s : State} (hs : s.Absorbed m) (nb : Nat) (data : Word)
    (hroom : s.len.toNat + 8 * nb < 2 ^ 64) :
    (performUpdate nb data s).Absorbed (m ++ updateBytes nb data) := by
  have hbuffered := hs.buffered.absorbAll (updateBytes nb data)
  have hlen : (performUpdate nb data s).len.toNat = 8 * (m ++ updateBytes nb data).length := by
    rw [performUpdate_len_toNat nb data s hroom, hs.length, List.length_append, updateBytes_length]
    omega
  rw [performUpdate_frame] at hlen ⊢
  exact ⟨hlen, hbuffered.hash, hbuffered.cursor, hbuffered.rest⟩

/-! ### The transients -/

theorem absorb_tr {s : State} (htr : s.tr = .zero) (b : Byte) : (absorb s b).tr = .zero := by
  rw [absorb_eq]
  split
  · rfl
  · exact htr

theorem absorbAll_tr {s : State} (htr : s.tr = .zero) (bs : List Byte) : (absorbAll bs s).tr = .zero := by
  induction bs generalizing s with
  | nil => exact htr
  | cons b bs ih => exact ih (absorb_tr htr b)

/-- An UPDATE leaves the transients 0 when they were 0 before (R32). -/
theorem performUpdate_tr {s : State} (htr : s.tr = .zero) (nb : Nat) (data : Word) :
    (performUpdate nb data s).tr = .zero := by
  rw [performUpdate_frame]
  exact absorbAll_tr htr _

/-! ### The padded message -/

theorem bytes64_getD (v : BitVec 64) (k : Nat) (hk : k < 8) : (bytes64 v).getD k 0 = longByte v k := by
  rw [bytes64, List.getD_eq_getElem _ _ (by simpa using hk), List.getElem_map, List.getElem_range]

/-- The padded message, byte by byte (R110). -/
theorem padMessage_getD (m : List Byte) (i : Nat) (hi : i < (padMessage m).length) :
    (padMessage m).getD i 0 =
      if i < m.length then m.getD i 0
      else if i = m.length then 0x80
      else if i < m.length + 1 + padZeros m.length then 0
      else longByte (BitVec.ofNat 64 (8 * m.length)) (i - (m.length + 1 + padZeros m.length)) := by
  rw [padMessage_length] at hi
  rw [padMessage]
  split_ifs with hmsg hone hzero
  · rw [List.getD_append _ _ _ _ (by simp; omega), List.getD_append _ _ _ _ (by simp; omega),
      List.getD_append _ _ _ _ hmsg]
  · rw [List.getD_append _ _ _ _ (by simp; omega), List.getD_append _ _ _ _ (by simp; omega),
      List.getD_append_right _ _ _ _ (by omega), hone, Nat.sub_self]
    rfl
  · rw [List.getD_append _ _ _ _ (by simp; omega), List.getD_append_right _ _ _ _ (by simp; omega),
      List.getD_replicate _ (by simp; omega)]
  · rw [List.getD_append_right _ _ _ _ (by simp; omega), bytes64_getD _ _ (by simp; omega)]
    congr 1; simp; omega

theorem hashBlocks_padMessage (m : List Byte) :
    hashBlocks (m.length / 64) (padMessage m) = hashBlocks (m.length / 64) m := by
  rw [padMessage, List.append_assoc, List.append_assoc, hashBlocks_append _ _ _ (by omega)]

section Padding
variable {m : List Byte} {s : State} (hs : s.Absorbed m)
include hs

theorem State.Absorbed.len_eq : s.len = BitVec.ofNat 64 (8 * m.length) := by
  rw [← hs.length, BitVec.ofNat_toNat, BitVec.setWidth_eq]

/-- A message byte still in the buffer is that byte of the padded message. -/
theorem State.Absorbed.buf_getElem (i : Nat) (hi : i < m.length % 64) :
    s.buf[i] = m.getD (64 * (m.length / 64) + i) 0 := by
  rw [← toList_getD s.buf i (by omega) 0, hs.rest i hi]

/-- With room for the length, one padding block (R107, R109). -/
theorem State.Absorbed.lastBlock_eq (hroom : m.length % 64 ≤ 55) :
    lastBlock s.buf s.cur.toNat s.len = messageBlock (padMessage m) (m.length / 64) := by
  have hlength := padMessage_length m
  have hzeros : padZeros m.length = 55 - m.length % 64 := by unfold padZeros; omega
  apply Vector.ext
  intro i hi
  have hmsg : 64 * (m.length / 64) + i < m.length ↔ i < m.length % 64 := by omega
  have hone : 64 * (m.length / 64) + i = m.length ↔ i = m.length % 64 := by omega
  have hzero : 64 * (m.length / 64) + i < m.length + 1 + padZeros m.length ↔ i < 56 := by omega
  have hfield : 64 * (m.length / 64) + i - (m.length + 1 + padZeros m.length) = i - 56 := by omega
  rw [messageBlock_getElem, padMessage_getD m _ (by omega), lastBlock_getElem, hs.cursor, hs.len_eq]
  simp only [hmsg, hone, hzero, hfield]
  by_cases hin : i < m.length % 64
  · simp only [if_pos hin, hs.buf_getElem i hin]
  · simp only [if_neg hin]

/-- Without room for the length, the first of two padding blocks (R107, R109). -/
theorem State.Absorbed.fullPadBlock_eq (hfull : 55 < m.length % 64) :
    fullPadBlock s.buf s.cur.toNat = messageBlock (padMessage m) (m.length / 64) := by
  have hlength := padMessage_length m
  have hzeros : padZeros m.length = 119 - m.length % 64 := by unfold padZeros; omega
  apply Vector.ext
  intro i hi
  have hmsg : 64 * (m.length / 64) + i < m.length ↔ i < m.length % 64 := by omega
  have hone : 64 * (m.length / 64) + i = m.length ↔ i = m.length % 64 := by omega
  have hzero : 64 * (m.length / 64) + i < m.length + 1 + padZeros m.length := by omega
  rw [messageBlock_getElem, padMessage_getD m _ (by omega), fullPadBlock_getElem, hs.cursor]
  simp only [hmsg, hone, if_pos hzero]
  by_cases hin : i < m.length % 64
  · simp only [if_pos hin, hs.buf_getElem i hin]
  · simp only [if_neg hin]

/-- The second of two padding blocks (R107, R109). -/
theorem State.Absorbed.lengthBlock_eq (hfull : 55 < m.length % 64) :
    lengthBlock s.len = messageBlock (padMessage m) (m.length / 64 + 1) := by
  have hlength := padMessage_length m
  have hzeros : padZeros m.length = 119 - m.length % 64 := by unfold padZeros; omega
  apply Vector.ext
  intro i hi
  have hmsg : ¬ 64 * (m.length / 64 + 1) + i < m.length := by omega
  have hone : ¬ 64 * (m.length / 64 + 1) + i = m.length := by omega
  have hzero : 64 * (m.length / 64 + 1) + i < m.length + 1 + padZeros m.length ↔ i < 56 := by omega
  have hfield : 64 * (m.length / 64 + 1) + i - (m.length + 1 + padZeros m.length) = i - 56 := by omega
  rw [messageBlock_getElem, padMessage_getD m _ (by omega), lengthBlock_getElem, hs.len_eq, if_neg hmsg, if_neg hone]
  simp only [hzero, hfield]

/-- PAD_AND_COMPRESS leaves SHA256 of the absorbed message (R106, R110). -/
theorem State.Absorbed.finalDigest_eq : finalDigest s.h s.buf s.cur.toNat s.len = sha256 m := by
  have hlength := padMessage_length m
  rw [finalDigest, sha256]
  by_cases hroom : m.length % 64 ≤ 55
  · have hzeros : padZeros m.length = 55 - m.length % 64 := by unfold padZeros; omega
    rw [if_pos (hs.cursor ▸ hroom), hs.lastBlock_eq hroom, hs.hash, ← hashBlocks_padMessage, ← hashBlocks_succ]
    congr 1; omega
  · have hzeros : padZeros m.length = 119 - m.length % 64 := by unfold padZeros; omega
    rw [if_neg (hs.cursor ▸ hroom), hs.fullPadBlock_eq (by omega), hs.lengthBlock_eq (by omega), hs.hash,
      ← hashBlocks_padMessage, ← hashBlocks_succ, ← hashBlocks_succ]
    congr 1; omega

end Padding

/-! ### Re-hashing -/

theorem bytesOfWords_length (d : Vector Word 8) : (bytesOfWords d).length = 32 := by
  simp [bytesOfWords, bytes32, List.length_flatMap]

/-- BLOCK_i is the padded message of the 32 digest bytes (R163). -/
theorem padMessage_bytesOfWords (d : Vector Word 8) :
    padMessage (bytesOfWords d) = (stretchBlockWords d).flatMap bytes32 := by
  have htail : [0x80] ++ List.replicate (padZeros 32) 0 ++ bytes64 (BitVec.ofNat 64 (8 * 32)) =
      [0x80000000, 0, 0, 0, 0, 0, 0, 0x00000100].flatMap bytes32 := by decide
  rw [padMessage, bytesOfWords_length, stretchBlockWords, List.flatMap_append, ← htail, bytesOfWords]
  simp only [List.append_assoc]

/-- SHA256 of the 32 digest bytes is one compression of BLOCK_i from IV (R163). -/
theorem sha256_bytesOfWords (d : Vector Word 8) : sha256 (bytesOfWords d) = rehash d := by
  have hblocks : (padMessage (bytesOfWords d)).length / 64 = 1 := by
    rw [padMessage_length, bytesOfWords_length]; rfl
  have hblock : messageBlock (padMessage (bytesOfWords d)) 0 = stretchBlock d := by
    apply Vector.ext
    intro i hi
    rw [messageBlock_getElem, stretchBlock_getElem, padMessage_bytesOfWords, Nat.mul_zero, Nat.zero_add]
  rw [sha256, hblocks, hashBlocks_succ, hashBlocks_zero, hblock, rehash]

theorem stretchDigest_eq_iterate (m : List Byte) (n : Nat) : stretchDigest m n = rehash^[n] (sha256 m) := by
  induction n with
  | zero => rfl
  | succ n ih => rw [Function.iterate_succ_apply', stretchDigest, sha256_bytesOfWords, ih]

end Sys2Proof.Machine
end

section
/-! PROOFS. The invariant of R41: what it depends on, that it holds after reset, and that every step keeps it. -/

namespace Sys2Proof.Machine

/-! ### What the invariant depends on -/

theorem State.Absorbed.congr {m : List Byte} {s t : State} (hs : s.Absorbed m) (he : SameEngine t s) : t.Absorbed m where
  length := by rw [he.len, hs.length]
  hash := by rw [he.h, hs.hash]
  cursor := by rw [he.cur, hs.cursor]
  rest := by rw [he.buf]; exact hs.rest

theorem State.ActiveInv.congr {s t : State} (hs : s.ActiveInv) (he : SameEngine t s) : t.ActiveInv where
  cursor := by rw [he.cur, he.len, hs.cursor]
  wholeBytes := by rw [he.len, hs.wholeBytes]
  latchClear := by rw [he.dig, hs.latchClear]
  message := hs.message.imp fun _ hm => hm.congr he

theorem State.InactiveInv.congr {s t : State} (hs : s.InactiveInv) (he : SameEngine t s) : t.InactiveInv where
  cursor := by rw [he.cur, hs.cursor]
  hashClear := by rw [he.h, hs.hashClear]
  bufferClear := by rw [he.buf, hs.bufferClear]
  idleClear := by rw [he.phase, he.len, he.dig]; exact hs.idleClear
  digest := by rw [he.phase, he.len, he.dig]; exact hs.digest

/-- The engine's elements carry the clauses of R41; ERR, CAUSE and PEND have clauses of their own. -/
theorem State.Inv.of_sameEngine {s t : State} (hs : s.Inv) (he : SameEngine t s)
    (herror : t.err = false ↔ t.cause = .none) (hpending : ∀ p, t.pend = some p → t.PendInv p) : t.Inv where
  cursor := by rw [he.cur]; exact hs.cursor
  active hphase := (hs.active (he.phase ▸ hphase)).congr he
  inactive hphase := (hs.inactive (he.phase ▸ hphase)).congr he
  transients := by rw [he.tr, hs.transients]
  error := herror
  pending := hpending

theorem State.PendInv.congr {s t : State} {p : Pending} (hs : s.PendInv p) (he : SameEngine t s)
    (hdata : t.dataIn = s.dataIn) (hiter : t.iter = s.iter) : t.PendInv p where
  kind := hs.kind
  phase := by rw [he.phase]; exact hs.phase
  count := hs.count
  room := by rw [he.len]; exact hs.room
  data := by rw [hdata, hs.data]
  iter := by rw [hiter, hs.iter]

/-- The invariant speaks of CORE alone. -/
theorem State.Inv.congr {s t : State} (hs : s.Inv) (hcore : SameCore t s) : t.Inv :=
  hs.of_sameEngine hcore.toSameEngine (by rw [hcore.err, hcore.cause]; exact hs.error) fun p hp =>
    (hs.pending p (hcore.pend ▸ hp)).congr hcore.toSameEngine hcore.dataIn hcore.iter

theorem no_pending {s : State} (hfree : s.pend = none) (p : Pending) (hp : s.pend = some p) : s.PendInv p := by
  rw [hfree] at hp
  cases hp

/-! ### Phases without a message: reset, ZEROIZE -/

/-- A state in the phase IDLE, all of whose sensitive elements are 0, with nothing pending. -/
theorem inv_of_idle {s : State} (hphase : s.phase = .idle) (hh : s.h = Vector.replicate 8 0)
    (hbuf : s.buf = Vector.replicate 64 0) (hcur : s.cur = 0) (hlen : s.len = 0) (hdig : s.dig = Vector.replicate 8 0)
    (htr : s.tr = .zero) (hfree : s.pend = none) (herror : s.err = false ↔ s.cause = .none) : s.Inv where
  cursor := by rw [hcur]; decide
  active hactive := by rw [hphase] at hactive; cases hactive
  inactive _ :=
    { cursor := hcur, hashClear := hh, bufferClear := hbuf, idleClear := fun _ => ⟨hlen, hdig⟩
      digest := fun hdone => by rw [hphase] at hdone; cases hdone }
  transients := htr
  error := herror
  pending := no_pending hfree

theorem hwReset_inv (s : State) : (hwReset s).Inv :=
  inv_of_idle rfl rfl rfl rfl rfl rfl rfl rfl (iff_of_true rfl rfl)

/-- Settles O50: reset of the reset state is the reset state. -/
theorem invariantHoldsAtReset : Obligations.InvariantHoldsAtReset := hwReset_inv State.reset

theorem performZeroize_inv {s : State} (hs : s.Inv) : (performZeroize s).Inv :=
  inv_of_idle rfl rfl rfl rfl rfl rfl rfl rfl hs.error

/-! ### The phase ACTIVE: INIT, UPDATE -/

/-- While ACTIVE the clauses about CUR and LEN follow from the absorbed message. -/
theorem inv_of_absorbed {m : List Byte} {s : State} (hs : s.Absorbed m) (hphase : s.phase = .active)
    (hdig : s.dig = Vector.replicate 8 0) (htr : s.tr = .zero) (hfree : s.pend = none)
    (herror : s.err = false ↔ s.cause = .none) : s.Inv where
  cursor := hs.buffered.cursor_lt
  active _ :=
    { cursor := by rw [hs.cursor, hs.length, Nat.mul_div_cancel_left _ (by decide)]
      wholeBytes := by rw [hs.length, Nat.mul_mod_right]
      latchClear := hdig
      message := ⟨m, hs⟩ }
  inactive hinactive := absurd hphase hinactive
  transients := htr
  error := herror
  pending := no_pending hfree

theorem performInit_absorbed (s : State) : (performInit s).Absorbed [] where
  length := rfl
  hash := (hashBlocks_zero []).symm
  cursor := rfl
  rest i hi := absurd hi (Nat.not_lt_zero i)

theorem performInit_inv {s : State} (hs : s.Inv) : (performInit s).Inv :=
  inv_of_absorbed (performInit_absorbed s) rfl rfl hs.transients rfl hs.error

theorem performUpdate_inv {s : State} (hs : s.Inv) (hactive : s.phase = .active) (nb : Nat) (data : Word)
    (hroom : s.len.toNat + 8 * nb < 2 ^ 64) : (performUpdate nb data s).Inv := by
  have hinv := hs.active hactive
  obtain ⟨m, hm⟩ := hinv.message
  refine inv_of_absorbed (performUpdate_absorbed hm nb data hroom) ?_ ?_ (performUpdate_tr hs.transients nb data) rfl ?_
  · rw [performUpdate_phase, hactive]
  · rw [performUpdate_dig, hinv.latchClear]
  · rw [performUpdate_err, performUpdate_cause]
    exact hs.error

/-! ### The phase DONE: FINAL, STRETCH -/

/-- FINAL (n = 0) and STRETCH latch the stretched digest of the message absorbed so far. -/
theorem digested_inv {s : State} (hs : s.Inv) (hactive : s.phase = .active) {n : Nat} (hn : n < 2 ^ 31) :
    (digested (rehash^[n] (padAndCompress s).h) s).Inv := by
  obtain ⟨m, hm⟩ := (hs.active hactive).message
  have hdigest : rehash^[n] (padAndCompress s).h = stretchDigest m n := by
    rw [padAndCompress_h s hs.cursor, hm.finalDigest_eq, stretchDigest_eq_iterate]
  rw [hdigest]
  exact
    { cursor := Nat.zero_lt_succ 63
      active := fun h => by cases h
      inactive := fun _ =>
        { cursor := rfl, hashClear := rfl, bufferClear := rfl, idleClear := fun h => by cases h
          digest := fun _ => ⟨m, n, hn, hm.length, rfl⟩ }
      transients := rfl
      error := hs.error
      pending := no_pending rfl }

/-! ### Every step -/

/-- UPDATE's check needs the phase ACTIVE and leaves room in LEN for the bytes (R204, R206). -/
theorem updateCheck_none {nb : Nat} {s : State} (h : updateCheck nb s = none) :
    s.phase = .active ∧ s.len.toNat + 8 * nb < 2 ^ 64 := by
  simp only [updateCheck, needsActive] at h
  by_cases hactive : s.phase = .active
  · simp only [if_pos hactive] at h
    refine ⟨hactive, ?_⟩
    by_contra hroom
    rw [if_pos (by omega)] at h
    cases h
  · simp only [if_neg hactive] at h
    cases h

theorem needsActive_none {s : State} (h : needsActive s = none) : s.phase = .active := by
  by_contra hactive
  rw [needsActive, if_neg hactive] at h
  cases h

theorem stretchCheck_none {s : State} (h : stretchCheck s = none) :
    s.phase = .active ∧ negativeCount s.iter = false := by
  cases hneeds : needsActive s with
  | some c => simp [stretchCheck, hneeds] at h
  | none => exact ⟨needsActive_none hneeds, by simpa [stretchCheck, hneeds] using h⟩

/-- A command that CommandIssue accepts meets what the invariant says of a pending command (R208). -/
theorem accept_pendInv {i : Instr} {s : State} (hkind : goesThroughPend i = true) (hcheck : commandCheck i s = none) :
    (accept i s).PendInv { cmd := i, data := s.dataIn, iter := s.iter } := by
  have hlen := s.len.isLt
  cases i with
  | nop | clrerr => cases hkind
  | init | zeroize => exact ⟨rfl, (fun h => by cases h), (fun h => by cases h), hlen, rfl, rfl⟩
  | update0 | update1 | update2 | update3 | update4 =>
    obtain ⟨hactive, hroom⟩ := updateCheck_none hcheck
    exact ⟨rfl, fun _ => hactive, (fun h => by cases h), hroom, rfl, rfl⟩
  | final => exact ⟨rfl, fun _ => needsActive_none hcheck, (fun h => by cases h), hlen, rfl, rfl⟩
  | stretch =>
    obtain ⟨hactive, hcount⟩ := stretchCheck_none hcheck
    exact ⟨rfl, fun _ => hactive, fun _ => hcount, hlen, rfl, rfl⟩

theorem HostEffect.inv {s u : State} (hu : HostEffect s u) (hs : s.Inv) : u.Inv := by
  have hengine := hu.sameEngine
  cases hu with
  | unchanged => exact hs
  | raised c hcause =>
    refine hs.of_sameEngine hengine ?_ fun p hp => ?_
    · rw [raiseError_err, raiseError_cause]
      split
      case isTrue herr => simpa [herr] using hs.error
      case isFalse => simpa using hcause
    · rw [raiseError_pend] at hp
      exact (hs.pending p hp).congr hengine (raiseError_dataIn ..) (raiseError_iter ..)
  | dataIn v rest hfree | iter v rest hfree => exact hs.of_sameEngine hengine hs.error (no_pending hfree)
  | cleared v rest hfree => exact hs.of_sameEngine hengine (iff_of_true rfl rfl) (no_pending hfree)
  | accepted i hfree hkind hcheck =>
    refine hs.of_sameEngine hengine hs.error fun p hp => ?_
    cases hp
    exact accept_pendInv hkind hcheck

theorem EngineEffect.inv {p : Pending} {s u : State} (hu : EngineEffect p s u) (hs : s.Inv) (hp : s.pend = some p) :
    u.Inv := by
  obtain ⟨hkind, hphase, -, hroom, -, -⟩ := hs.pending p hp
  cases hu with
  | init => exact performInit_inv hs
  | update hop => exact performUpdate_inv hs (hphase (needsInstance_of_update hop)) _ _ hroom
  | digest n hcmd hn =>
    refine digested_inv hs (hphase ?_) hn
    rcases hcmd with hcmd | hcmd <;> rw [hcmd] <;> rfl
  | zeroize => exact performZeroize_inv hs
  | nop hcmd | clrerr hcmd => rw [hcmd] at hkind; cases hkind

/-- Settles O51: each effect of a step keeps the invariant. -/
theorem everyStepKeepsTheInvariant : Obligations.EveryStepKeepsTheInvariant := by
  intro s t hs hstep
  rcases step_effect hstep with ⟨-, hcore⟩ | ⟨-, u, hu, hcore⟩ | ⟨-, -, hcore⟩ | ⟨-, p, hp, u, hu, hcore⟩
  · exact (hwReset_inv s).congr hcore
  · exact (hu.inv hs).congr hcore
  · exact hs.congr hcore
  · exact (hu.inv hs hp).congr hcore

end Sys2Proof.Machine
end

section
/-! PROOFS. Commands that read the buffer at the engine's move: where they stop (log 6), and that bytes at CUR and above do not matter (R23); then what STATUS shows (R36) and the byte order of the digest (R40). -/

namespace Sys2Proof.Machine

/-! ### The buffer at and beyond the cursor -/

theorem atMoment_engine {s : State} {p : Pending} (hm : s.mover = .engine) (hp : s.pend = some p)
    (issued : State → State) (performed : Pending → State → Host.Outcome State Fault Refusal) :
    atMoment issued performed s = performed p s := by
  simp only [atMoment, hm, hp]

theorem withinBuffer_inside {s : State} (hcur : s.cur.toNat < 64) (effect : State → State) :
    withinBuffer effect s = .next (effect s) := if_pos hcur

theorem withinBuffer_outside {s : State} (hcur : 64 ≤ s.cur.toNat) (effect : State → State) :
    withinBuffer effect s = .fault .cursorOutsideBuffer := if_neg (by omega)

/-- Settles O28: each of these commands is performed within the buffer only. -/
theorem cursorOutsideTheBufferStops : Obligations.CursorOutsideTheBufferStops := by
  intro i s p hneeds hbytes hm hp hcur
  cases i with
  | nop | init | zeroize | clrerr => cases hneeds
  | update0 => exact absurd rfl hbytes
  | update1 | update2 | update3 | update4 | final | stretch =>
    exact (atMoment_engine hm hp _ _).trans (withinBuffer_outside hcur _)

/-- The padding overwrites every byte at CUR and above (R107). -/
theorem finalDigest_congr (h : Vector Word 8) (len : BitVec 64) {b buf : Vector Byte 64} {cur : Nat}
    (hbelow : ∀ j : Fin 64, j.val < cur → b[j] = buf[j]) : finalDigest h b cur len = finalDigest h buf cur len := by
  have hlast : lastBlock b cur len = lastBlock buf cur len := by
    apply Vector.ext
    intro i hi
    rw [lastBlock_getElem, lastBlock_getElem]
    exact if_ctx_congr Iff.rfl (hbelow ⟨i, hi⟩) fun _ => rfl
  have hfull : fullPadBlock b cur = fullPadBlock buf cur := by
    apply Vector.ext
    intro i hi
    rw [fullPadBlock_getElem, fullPadBlock_getElem]
    exact if_ctx_congr Iff.rfl (hbelow ⟨i, hi⟩) fun _ => rfl
  rw [finalDigest, finalDigest, hlast, hfull]

section Stale
variable {s : State} {b : Vector Byte 64} (hcur : s.cur.toNat < 64)
  (hbelow : ∀ j : Fin 64, j.val < s.cur.toNat → b[j] = s.buf[j])
include hcur hbelow

theorem performFinal_stale : performFinal { s with buf := b } = performFinal s := by
  rw [performFinal_eq _ hcur, performFinal_eq { s with buf := b } hcur]
  simp only [finalDigest_congr s.h s.len hbelow]

theorem performStretch_stale (iter : Word) : performStretch iter { s with buf := b } = performStretch iter s := by
  rw [performStretch_eq _ _ hcur, performStretch_eq _ { s with buf := b } hcur]
  simp only [finalDigest_congr s.h s.len hbelow]

end Stale

/-- Settles O60: inside the buffer the digest depends on the bytes below CUR only; outside it both stop. -/
theorem staleBufferBytesDoNotMatter : Obligations.StaleBufferBytesDoNotMatter := by
  intro i s p b hi hm hp hbelow
  have hm' : { s with buf := b }.mover = .engine := hm
  have hp' : { s with buf := b }.pend = some p := hp
  by_cases hcur : s.cur.toNat < 64
  · have hcur' : { s with buf := b }.cur.toNat < 64 := hcur
    rcases hi with rfl | rfl
    · simp only [exec, execFinal, atMoment_engine hm hp, atMoment_engine hm' hp', withinBuffer_inside hcur,
        withinBuffer_inside hcur', performFinal_stale hcur hbelow]
    · simp only [exec, execStretch, atMoment_engine hm hp, atMoment_engine hm' hp', withinBuffer_inside hcur,
        withinBuffer_inside hcur', performStretch_stale hcur hbelow]
  · have hneeds : needsInstance i = true ∧ i ≠ .update0 := by rcases hi with rfl | rfl <;> decide
    rw [cursorOutsideTheBufferStops i s p hneeds.1 hneeds.2 hm hp (by omega),
      cursorOutsideTheBufferStops i { s with buf := b } p hneeds.1 hneeds.2 hm hp (not_lt.mp hcur)]

/-! ### STATUS -/

/-- The fields of STATUS, as numbers (R36). -/
theorem statusWord_toNat (s : State) :
    (statusWord s).toNat =
      s.busy.toNat + 2 * s.err.toNat + 4 * (phaseCode s.phase).toNat + 16 * (causeCode s.cause).toNat := by
  unfold statusWord
  cases s.busy <;> cases s.err <;> cases s.phase <;> cases s.cause <;> rfl

theorem busy_toNat (s : State) : s.busy.toNat = if s.pend = none then 0 else 1 := by
  cases hp : s.pend <;> simp [State.busy, hp]

/-- Settles O30: the codes of PHASE and CAUSE are those of R27 and R201, and no access to STATUS has an effect. -/
theorem statusShowsBusyErrPhaseCause : Obligations.StatusShowsBusyErrPhaseCause := by
  intro s v
  refine ⟨?_, rfl, rfl⟩
  have herr : 2 * s.err.toNat = if s.err then 2 else 0 := by cases s.err <;> rfl
  rw [statusWord_toNat, busy_toNat, herr]
  congr 1
  · cases s.phase <;> rfl
  · cases s.cause <;> rfl

/-! ### The bytes of the digest -/

theorem wordByte_toNat (w : Word) (k : Nat) : (wordByte w k).toNat = w.toNat / 2 ^ (24 - 8 * k) % 256 := by
  rw [wordByte, BitVec.toNat_setWidth, BitVec.toNat_ushiftRight, Nat.shiftRight_eq_div_pow]

theorem bytes32_getD (w : Word) (k : Nat) (hk : k < 4) : (bytes32 w).getD k 0 = wordByte w k := by
  interval_cases k <;> rfl

/-- Word i of a list gives its bytes 4i .. 4i + 3. -/
theorem flatMap_bytes32_getD (ws : List Word) (i k : Nat) (hi : i < ws.length) (hk : k < 4) :
    (ws.flatMap bytes32).getD (4 * i + k) 0 = wordByte ws[i] k := by
  induction ws generalizing i with
  | nil => cases hi
  | cons w ws ih =>
    have hlength : (bytes32 w).length = 4 := rfl
    rw [List.flatMap_cons]
    cases i with
    | zero => rw [List.getD_append _ _ _ _ (by omega), Nat.mul_zero, Nat.zero_add, bytes32_getD w k hk]; rfl
    | succ i =>
      rw [List.getD_append_right _ _ _ _ (by omega), hlength, show 4 * (i + 1) + k - 4 = 4 * i + k by omega,
        ih i (by simpa using hi)]
      rfl

/-- Settles O31. -/
theorem digestBytesAreBigEndian : Obligations.DigestBytesAreBigEndian := by
  intro d
  refine ⟨bytesOfWords_length d, fun i k hk => ?_⟩
  rw [bytesOfWords, flatMap_bytes32_getD _ _ _ (by simp) hk, wordByte_toNat, Vector.getElem_toList]
  rfl

end Sys2Proof.Machine
end

section
/-! PROOFS. The register map (R50 to R55): which accesses are bad, what an aligned access to each slot does, and where the windows of the instances lie (R224). -/

namespace Sys2Proof.Machine

/-! ### The windows of the instances (R50, R224) -/

theorem windowIndex_strictMono : StrictMono Config.windowIndex :=
  strictMono_nat_of_lt_succ fun k => by rw [Config.windowIndex]; omega

theorem windowOffset_eq_some_iff (k addr : Nat) (off : Offset) :
    windowOffset k addr = some off ↔ addr = Config.pBase k + off.toNat := by
  unfold windowOffset
  constructor
  · intro h
    split at h
    case isTrue hin =>
      cases h
      rw [BitVec.toNat_ofNat]
      omega
    case isFalse => cases h
  · rintro rfl
    have hoff : off.toNat < 64 := off.isLt
    rw [if_pos (by omega), Nat.add_sub_cancel_left, BitVec.ofNat_toNat, BitVec.setWidth_eq]

/-- Settles O33: an address of a window determines the window's slot, and the slots strictly increase with k. -/
theorem windowOfSixtyFourBytesAtBase : Obligations.WindowOfSixtyFourBytesAtBase := by
  refine ⟨fun k => Nat.mul_mod_right 64 _, windowOffset_eq_some_iff, fun k j addr a b hk hj => ?_⟩
  rw [windowOffset_eq_some_iff] at hk hj
  have ha : a.toNat < 64 := a.isLt
  have hb : b.toNat < 64 := b.isLt
  have hslot : Config.windowIndex k = Config.windowIndex j := by
    simp only [Config.pBase] at hk hj
    omega
  exact windowIndex_strictMono.injective hslot

/-! ### Aligned and bad accesses (R52, R55) -/

theorem badAccess_iff (off : Offset) (size : AccessSize) :
    badAccess off size = true ↔ size ≠ .four ∨ off.toNat % 4 ≠ 0 := by
  have hlow : (off.extractLsb 1 0).toNat = off.toNat % 4 := by
    rw [BitVec.extractLsb_toNat, Nat.shiftRight_zero]
  have halign : off.extractLsb 1 0 = 0#2 ↔ off.toNat % 4 = 0 := by
    rw [← hlow, ← BitVec.toNat_inj]
    rfl
  cases size <;> simp [badAccess, sizeBytes, halign]

theorem badAccess_four {off : Offset} (halign : off.toNat % 4 = 0) : badAccess off .four = false := by
  rw [← Bool.not_eq_true, badAccess_iff]
  simp [halign]

theorem regRead_bad {off : Offset} {size : AccessSize} (hbad : badAccess off size = true) (s : State) :
    regRead off size s = ({ value := some 0, error := true }, raiseError .badAccess s) := if_pos hbad

theorem regWrite_bad {off : Offset} {size : AccessSize} (hbad : badAccess off size = true) (v : Word) (s : State) :
    regWrite off size v s = .next (raiseError .badAccess s) := if_pos hbad

theorem regRead_aligned {off : Offset} (halign : off.toNat % 4 = 0) (s : State) :
    regRead off .four s = ({ value := some (readRegister off s).1, error := false }, (readRegister off s).2) := by
  rw [regRead, badAccess_four halign]
  rfl

theorem regWrite_aligned {off : Offset} (halign : off.toNat % 4 = 0) (hcmd : off ≠ 0x00) (v : Word) (s : State) :
    regWrite off .four v s = .next (writeRegister off v s) := by
  rw [regWrite, badAccess_four halign, if_neg (by decide), if_neg hcmd]

theorem readUnlessBusy_busy {s : State} (hbusy : s.busy = true) (v : Word) :
    readUnlessBusy v s = (Config.any32 s.draws, { s with draws := s.draws + 1 }) := if_pos hbusy

theorem busy_of_pend_none {s : State} (hfree : s.pend = none) : s.busy = false := by
  rw [State.busy, hfree]
  rfl

theorem readUnlessBusy_free {s : State} (hfree : s.pend = none) (v : Word) : readUnlessBusy v s = (v, s) := by
  rw [readUnlessBusy, busy_of_pend_none hfree]
  rfl

theorem readRegister_lenLo (s : State) : readRegister 0x10 s = readUnlessBusy (s.len.extractLsb' 0 32) s := rfl

theorem readRegister_lenHi (s : State) : readRegister 0x14 s = readUnlessBusy (s.len.extractLsb' 32 32) s := rfl

/-- The slots 0x20..0x3C are the digest latch. -/
theorem readRegister_digest {off : Offset} (hoff : 0x20 ≤ off.toNat) (s : State) :
    readRegister off s = readUnlessBusy (s.dig.toList.getD ((off.toNat - 0x20) / 4) 0) s := by
  have hne : ∀ c : Offset, c.toNat < 0x20 → off ≠ c := by
    rintro c hc rfl
    omega
  rw [readRegister, if_neg (hne 0x04 (by decide)), if_neg (hne 0x0C (by decide)), if_neg (hne 0x10 (by decide)),
    if_neg (hne 0x14 (by decide)), if_pos hoff]

theorem regRead_digest {s : State} (hfree : s.pend = none) (i : Fin 8) :
    regRead (BitVec.ofNat 6 (0x20 + 4 * i.val)) .four s = ({ value := some s.dig[i], error := false }, s) := by
  have hoff : (BitVec.ofNat 6 (0x20 + 4 * i.val)).toNat = 0x20 + 4 * i.val := by
    rw [BitVec.toNat_ofNat]
    omega
  have hword : (0x20 + 4 * i.val - 0x20) / 4 = i.val := by omega
  rw [regRead_aligned (by omega), readRegister_digest (by omega), readUnlessBusy_free hfree, hoff, hword,
    toList_getD s.dig i.val i.isLt]
  rfl

/-- A slot whose value is unspecified while BUSY = 1 draws a fresh one. -/
theorem regRead_unspecified {s : State} (hbusy : s.busy = true) {off : Offset}
    (hoff : off = 0x10 ∨ off = 0x14 ∨ (0x20 ≤ off.toNat ∧ off.toNat % 4 = 0)) :
    regRead off .four s =
      ({ value := some (Config.any32 s.draws), error := false }, { s with draws := s.draws + 1 }) := by
  rcases hoff with rfl | rfl | ⟨hdig, halign⟩
  · rw [regRead_aligned (by decide), readRegister_lenLo, readUnlessBusy_busy hbusy]
  · rw [regRead_aligned (by decide), readRegister_lenHi, readUnlessBusy_busy hbusy]
  · rw [regRead_aligned halign, readRegister_digest hdig, readUnlessBusy_busy hbusy]

/-- Settles O29: slot by slot, an aligned access is `readRegister` or `writeRegister` of its offset, at CMD it is CommandIssue. -/
theorem accessesDecodeTheRegisterMap : Obligations.AccessesDecodeTheRegisterMap := by
  intro s v
  refine ⟨fun off size hbad => ?bad, rfl, rfl, fun hfree => ⟨?lenLo, ?lenHi, regRead_digest hfree⟩,
    fun hbusy off hoff => regRead_unspecified hbusy hoff, fun off hoff => ?zero, rfl,
    fun hbusy => ⟨?dataBusy, ?iterBusy⟩, fun hfree => ⟨?dataFree, ?iterFree⟩, fun off halign hoff => ?ignored⟩
  case bad =>
    rw [← badAccess_iff] at hbad
    exact ⟨regRead_bad hbad s, regWrite_bad hbad v s⟩
  case lenLo =>
    rw [regRead_aligned (by decide), readRegister_lenLo, readUnlessBusy_free hfree]
    rfl
  case lenHi =>
    rw [regRead_aligned (by decide), readRegister_lenHi, readUnlessBusy_free hfree, BitVec.extractLsb',
      Nat.shiftRight_eq_div_pow]
  case zero =>
    simp only [List.mem_cons, List.not_mem_nil, or_false] at hoff
    rcases hoff with rfl | rfl | rfl | rfl <;> rfl
  case dataBusy | iterBusy =>
    rw [regWrite_aligned (by decide) (by decide)]
    exact congrArg _ (if_pos hbusy)
  case dataFree | iterFree =>
    rw [regWrite_aligned (by decide) (by decide), writeRegister, busy_of_pend_none hfree]
    rfl
  case ignored =>
    simp only [List.mem_cons, List.not_mem_nil, or_false, not_or] at hoff
    obtain ⟨hcmd, hdata, hiter⟩ := hoff
    rw [regWrite_aligned halign hcmd, writeRegister, if_neg hdata, if_neg hiter]

end Sys2Proof.Machine
end

section
/-! PROOFS. What a step does with the host's next access (R51, R60, log 8), what it leaves unchanged while a command is pending (R63, R207), and the engine's entry when none is (R62). -/

namespace Sys2Proof.Machine

/-! ### The host's next access -/

theorem mapNext_mapNext (f g : State → State) (o : Host.Outcome State Fault Refusal) :
    mapNext f (mapNext g o) = mapNext (f ∘ g) o := by
  cases o <;> rfl

/-- An access that does not trap the host goes on with the rest of its program. -/
theorem complete_untrapped {r : BusResponse} (htrap : trapsHost r = false) (rest : List HostOp) (s : State) :
    complete r rest s = { s with log := r :: s.log, prog := rest } := by
  rw [complete, htrap]
  rfl

/-- An access that traps the host goes on with what the host does from that trap on (log 8). -/
theorem complete_trapped {r : BusResponse} (htrap : trapsHost r = true) (rest : List HostOp) (s : State) :
    complete r rest s =
      { s with log := r :: s.log, prog := s.handlers.headD [], handlers := s.handlers.tail } := by
  rw [complete, htrap]
  rfl

theorem trapsHost_eq_false {r : BusResponse} (h : r.error = false ∨ Config.busErrorTraps = false) :
    trapsHost r = false := by
  rcases h with h | h <;> simp [trapsHost, h]

theorem trapsHost_eq_true {r : BusResponse} (herror : r.error = true) (htraps : Config.busErrorTraps = true) :
    trapsHost r = true := by
  simp [trapsHost, herror, htraps]

theorem step_read {s : State} {off : Offset} {size : AccessSize} {rest : List HostOp} (hm : s.mover = .host)
    (hprog : s.prog = .read off size :: rest) :
    step s = .next (advance (complete (regRead off size s).1 rest (regRead off size s).2)) := by
  rw [step_host s hm, hostNext, hprog]

theorem step_write {s : State} {off : Offset} {size : AccessSize} {v : Word} {rest : List HostOp}
    (hm : s.mover = .host) (hprog : s.prog = .write off size v :: rest) :
    step s = mapNext (advance ∘ complete { value := none, error := badAccess off size } rest)
      (regWrite off size v s) := by
  simp only [step, agentMove, hm, hostTurn, hprog, hostMove, mapNext_mapNext]

theorem step_checkok {s : State} {rest : List HostOp} (hm : s.mover = .host) (hprog : s.prog = .checkok :: rest) :
    step s = .next (advance (complete (statusResponse s) rest { s with unmet := s.unmet || s.err })) := by
  rw [step_host s hm, hostNext, hprog]

theorem step_checkdone {s : State} {guarded : Nat} {rest : List HostOp} (hm : s.mover = .host)
    (hprog : s.prog = .checkdone guarded :: rest) :
    step s = .next (advance (complete (statusResponse s)
      (if resultValid (statusWord s) then rest else rest.drop guarded)
      { s with unmet := s.unmet || !resultValid (statusWord s) })) := by
  rw [step_host s hm, hostNext, hprog]

theorem step_host_finished {s : State} (hm : s.mover = .host) (hprog : s.prog = []) : step s = .next (advance s) := by
  simp only [step, agentMove, hm, hostTurn, hprog, mapNext]

/-- A write that does not trap the host is performed and recorded, and program and schedule go on. -/
theorem step_write_untrapped {s : State} {off : Offset} {size : AccessSize} {v : Word} {rest : List HostOp}
    (hm : s.mover = .host) (hprog : s.prog = .write off size v :: rest)
    (hok : badAccess off size = false ∨ Config.busErrorTraps = false) :
    step s = mapNext
      (fun t => { t with log := { value := none, error := badAccess off size } :: t.log, prog := rest,
                         sched := t.sched.tail })
      (regWrite off size v s) := by
  rw [step_write hm hprog]
  congr 1
  funext t
  rw [Function.comp_apply, complete_untrapped (trapsHost_eq_false hok)]
  rfl

/-- Settles O34: CMD is written by an aligned access, which never traps the host, and that write is CommandIssue. -/
theorem stepRunsTheDecodedCommand : Obligations.StepRunsTheDecodedCommand := by
  refine ⟨fun s v rest i hm hprog hdecode => ?_, fun s p hm hp => ?_⟩
  · have hissue : regWrite 0x00 .four v s = exec i s := by
      change commandIssue v s = exec i s
      rw [commandIssue, hdecode]
    rw [step_write_untrapped hm hprog (.inl rfl), hissue]
    rfl
  · simp only [step, agentMove, hm, engineTurn, hp]
    rfl

/-! ### What a move of the host leaves unchanged -/

theorem raiseError_frame (c : Cause) (s : State) :
    raiseError c s = { s with err := (raiseError c s).err, cause := (raiseError c s).cause } := by
  unfold raiseError
  split <;> rfl

/-- A read can change ERR and CAUSE and the count of the draws (R57). -/
theorem regRead_frame (off : Offset) (size : AccessSize) (s : State) :
    (regRead off size s).2 =
      { s with
        err := (regRead off size s).2.err, cause := (regRead off size s).2.cause,
        draws := (regRead off size s).2.draws } := by
  rcases regRead_cases off size s with ⟨-, h⟩ | ⟨-, h | ⟨-, h⟩⟩ <;> rw [h]
  rw [raiseError_draws]
  exact raiseError_frame .badAccess s

@[simp] theorem regRead_log (off : Offset) (size : AccessSize) (s : State) : (regRead off size s).2.log = s.log := by
  rw [regRead_frame]

@[simp] theorem regRead_sched (off : Offset) (size : AccessSize) (s : State) :
    (regRead off size s).2.sched = s.sched := by
  rw [regRead_frame]

@[simp] theorem regRead_handlers (off : Offset) (size : AccessSize) (s : State) :
    (regRead off size s).2.handlers = s.handlers := by
  rw [regRead_frame]

/-- While a command is pending a write can raise an error and nothing else (R207). -/
theorem writeNext_frame_of_busy (off : Offset) (size : AccessSize) (v : Word) {s : State} (hbusy : s.busy = true) :
    writeNext off size v s =
      { s with err := (writeNext off size v s).err, cause := (writeNext off size v s).cause } := by
  have hpend : s.pend ≠ none := fun hfree => by simp [busy_of_pend_none hfree] at hbusy
  rcases writeNext_cases off size v s with ⟨c, -, h⟩ | h | ⟨hfree, -⟩ | ⟨hfree, -⟩ | ⟨hfree, -⟩
  · rw [h]
    exact raiseError_frame c s
  · rw [h]
  all_goals exact absurd hfree hpend

/-- While a command is pending a move of the host can change ERR and CAUSE and what stands outside CORE, but not the schedule (R63). -/
theorem hostNext_frame_of_busy {s : State} (hbusy : s.busy = true) :
    hostNext s =
      { s with
        err := (hostNext s).err, cause := (hostNext s).cause, prog := (hostNext s).prog,
        handlers := (hostNext s).handlers, log := (hostNext s).log, draws := (hostNext s).draws,
        unmet := (hostNext s).unmet } := by
  unfold hostNext
  cases s.prog with
  | nil => rfl
  | cons op rest =>
    cases op with
    | read off size =>
      dsimp only
      rw [regRead_frame]
      rfl
    | write off size v =>
      dsimp only
      rw [writeNext_frame_of_busy off size v hbusy]
      rfl
    | wait =>
      dsimp only
      rw [if_pos hbusy]
    | checkok => rfl
    | checkdone guarded => rfl

/-- Settles O46: the step is the host's move and the advance of the schedule. -/
theorem hostCannotDisturbAPendingCommand : Obligations.HostCannotDisturbAPendingCommand := by
  intro s t hm hbusy hstep
  rw [step_host s hm] at hstep
  cases hstep
  exact congrArg advance (hostNext_frame_of_busy hbusy)

/-- STATUS says that the digest may be read exactly when nothing is pending, ERR = 0 and PHASE is DONE (R168). -/
theorem resultValid_iff (s : State) :
    resultValid (statusWord s) = true ↔ s.pend = none ∧ s.err = false ∧ s.phase = .done := by
  rw [resultValid_statusWord]
  simp [State.busy, and_assoc]

/-- Settles O35: each kind of move by its own rule above. -/
theorem stepPerformsTheNextAccess : Obligations.StepPerformsTheNextAccess := by
  intro s rest hm
  refine ⟨fun off size hprog hok => ?read, fun off size hprog herror htraps => ?readTrapped,
    fun off size v hprog hok => step_write_untrapped hm hprog hok,
    fun off size v hprog hbad htraps => ?writeTrapped, fun hprog => ?checkok,
    fun guarded hprog => ⟨fun hdone => ?met, fun hdone => ?unmet⟩, fun hprog => ?finished⟩
  case read =>
    rw [step_read hm hprog, complete_untrapped (trapsHost_eq_false hok), advance, regRead_log, regRead_sched]
  case readTrapped =>
    rw [step_read hm hprog, complete_trapped (trapsHost_eq_true herror htraps), advance, regRead_log, regRead_sched,
      regRead_handlers]
  case writeTrapped =>
    rw [step_write hm hprog, regWrite_bad hbad, hbad, mapNext, Function.comp_apply,
      complete_trapped (trapsHost_eq_true rfl htraps), advance, raiseError_log, raiseError_sched, raiseError_handlers]
  case checkok => exact step_checkok hm hprog
  case met =>
    rw [step_checkdone hm hprog, (resultValid_iff s).mpr hdone, Bool.not_true, Bool.or_false]
    rfl
  case unmet =>
    rw [← resultValid_iff, Bool.not_eq_true] at hdone
    rw [step_checkdone hm hprog, hdone, Bool.not_false, Bool.or_true]
    rfl
  case finished => exact step_host_finished hm hprog

/-! ### The engine without a pending command (R62) -/

/-- Settles O36. -/
theorem engineHasNoStepWhenNothingIsPending : Obligations.EngineHasNoStepWhenNothingIsPending :=
  step_engine_idle

end Sys2Proof.Machine
end

section
/-! PROOFS. The command words (R81 to R87): a word is its three fields, the decoder is the inverse of the encoder, and the legal words are those of R86. -/

namespace Sys2Proof

/-! ### The three fields of a word (R81) -/

theorem rawCommand_rsvd_toNat (v : Word) : (rawCommand v).rsvd.toNat = v.toNat / 2 ^ 7 := by
  have hv := v.isLt
  rw [rawCommand, BitVec.extractLsb_toNat, Nat.shiftRight_eq_div_pow]
  omega

theorem rawCommand_nb_toNat (v : Word) : (rawCommand v).nb.toNat = v.toNat / 16 % 8 := by
  rw [rawCommand, BitVec.extractLsb_toNat, Nat.shiftRight_eq_div_pow]

theorem rawCommand_op_toNat (v : Word) : (rawCommand v).op.toNat = v.toNat % 16 := by
  rw [rawCommand, BitVec.extractLsb_toNat, Nat.shiftRight_zero]

theorem word_toNat (r : RawCommand) : r.word.toNat = 2 ^ 7 * r.rsvd.toNat + 16 * r.nb.toNat + r.op.toNat := by
  have hnb := r.nb.isLt
  have hop := r.op.isLt
  rw [RawCommand.word, BitVec.toNat_append, BitVec.toNat_append, ← Nat.shiftLeft_add_eq_or_of_lt hnb,
    ← Nat.shiftLeft_add_eq_or_of_lt hop, Nat.shiftLeft_eq, Nat.shiftLeft_eq]
  omega

theorem word_rawCommand (v : Word) : (rawCommand v).word = v := by
  apply BitVec.eq_of_toNat_eq
  rw [word_toNat, rawCommand_rsvd_toNat, rawCommand_nb_toNat, rawCommand_op_toNat]
  omega

/-- A raw command is determined by its fields as numbers. -/
theorem rawCommand_ext_toNat {r q : RawCommand} (hrsvd : r.rsvd.toNat = q.rsvd.toNat) (hnb : r.nb.toNat = q.nb.toNat)
    (hop : r.op.toNat = q.op.toNat) : r = q := by
  obtain ⟨rsvd, nb, op⟩ := r
  rw [RawCommand.mk.injEq]
  exact ⟨BitVec.eq_of_toNat_eq hrsvd, BitVec.eq_of_toNat_eq hnb, BitVec.eq_of_toNat_eq hop⟩

theorem rawCommand_word (r : RawCommand) : rawCommand r.word = r := by
  have hnb := r.nb.isLt
  have hop := r.op.isLt
  apply rawCommand_ext_toNat
  · rw [rawCommand_rsvd_toNat, word_toNat]; omega
  · rw [rawCommand_nb_toNat, word_toNat]; omega
  · rw [rawCommand_op_toNat, word_toNat]; omega

theorem rawCommand_eq_iff (v : Word) (r : RawCommand) : rawCommand v = r ↔ v = r.word :=
  ⟨fun h => by rw [← h, word_rawCommand], fun h => by rw [h, rawCommand_word]⟩

/-! ### The decoder on fields (R82, R83) -/

/-- The fields of a command's word (R81 to R83). -/
def Instr.fields (i : Instr) : RawCommand := { rsvd := 0, nb := i.nb, op := i.op }

theorem encode_eq_word (i : Instr) : encode i = i.fields.word := rfl

theorem decodePlain_ok {i j : Instr} {nb : Nat} (h : decodePlain j nb = .ok i) : nb = 0 ∧ i = j := by
  unfold decodePlain at h
  split at h <;> cases h
  exact ⟨rfl, rfl⟩

theorem decodeUpdate_ok {i : Instr} {nb : Nat} (h : decodeUpdate nb = .ok i) : nb = i.nb.toNat ∧ i.op = 2 := by
  unfold decodeUpdate at h
  split at h <;> cases h <;> exact ⟨rfl, rfl⟩

theorem decodeFields_fields (i : Instr) : decodeFields i.fields = .ok i := by
  cases i <;> rfl

/-- Each branch of the decoder fixes OP, and the branch's own check fixes NB. -/
theorem decodeFields_ok {r : RawCommand} {i : Instr} (h : decodeFields r = .ok i) : r = i.fields := by
  unfold decodeFields at h
  split at h
  case isTrue => cases h
  case isFalse hrsvd =>
    have hzero : r.rsvd.toNat = 0 := congrArg BitVec.toNat (not_not.mp hrsvd)
    split at h
    case h_3 hop =>
      obtain ⟨hnb, hi⟩ := decodeUpdate_ok h
      exact rawCommand_ext_toNat hzero hnb (hop.trans (congrArg BitVec.toNat hi).symm)
    case h_8 => cases h
    case h_1 hop | h_2 hop | h_4 hop | h_5 hop | h_6 hop | h_7 hop =>
      obtain ⟨hnb, rfl⟩ := decodePlain_ok h
      exact rawCommand_ext_toNat hzero hnb hop

theorem decodeFields_eq_ok_iff (r : RawCommand) (i : Instr) : decodeFields r = .ok i ↔ r = i.fields :=
  ⟨decodeFields_ok, fun h => h ▸ decodeFields_fields i⟩

/-! ### The decoder on words (R86, R87) -/

/-- Settles O3: both sides say that the fields of the word are those of the command. -/
theorem decodeIsInverseOfEncode : Obligations.DecodeIsInverseOfEncode := by
  intro v i
  rw [decode, decodeFields_eq_ok_iff, rawCommand_eq_iff, encode_eq_word]

@[simp] theorem decode_encode (i : Instr) : decode (encode i) = .ok i :=
  (decodeIsInverseOfEncode _ i).mpr rfl

/-- Settles O1: each word of the list is its command's encoding. -/
theorem legalWordsDecodeToTheirCommands : Obligations.LegalWordsDecodeToTheirCommands :=
  ⟨decode_encode .nop, decode_encode .init, decode_encode .update0, decode_encode .update1, decode_encode .update2,
    decode_encode .update3, decode_encode .update4, decode_encode .final, decode_encode .stretch,
    decode_encode .zeroize, decode_encode .clrerr⟩

end Sys2Proof

namespace Sys2Proof.Machine

theorem updateOf_op (nb : Fin 5) : (updateOf nb).op = 2 := by
  revert nb; decide

theorem byteCount_updateOf (nb : Fin 5) : byteCount (updateOf nb) = nb.val := by
  revert nb; decide

/-- The formula of R86, on the fields of a word. -/
theorem exists_fields_iff (r : RawCommand) :
    (∃ i : Instr, r = i.fields) ↔
      r.rsvd.toNat = 0 ∧ ((r.op.toNat = 2 ∧ r.nb.toNat ≤ 4) ∨ (r.op.toNat ∈ [0, 1, 3, 4, 5, 6] ∧ r.nb.toNat = 0)) := by
  constructor
  · rintro ⟨i, rfl⟩
    cases i <;> decide
  · rintro ⟨hrsvd, ⟨hop, hnb⟩ | ⟨hop, hnb⟩⟩
    · have hlt : r.nb.toNat < 5 := by omega
      have hcount := byteCount_updateOf ⟨r.nb.toNat, hlt⟩
      have hcode := congrArg BitVec.toNat (updateOf_op ⟨r.nb.toNat, hlt⟩)
      exact ⟨_, rawCommand_ext_toNat hrsvd hcount.symm (hop.trans hcode.symm)⟩
    · simp only [List.mem_cons, List.not_mem_nil, or_false] at hop
      rcases hop with hop | hop | hop | hop | hop | hop
      · exact ⟨.nop, rawCommand_ext_toNat hrsvd hnb hop⟩
      · exact ⟨.init, rawCommand_ext_toNat hrsvd hnb hop⟩
      · exact ⟨.final, rawCommand_ext_toNat hrsvd hnb hop⟩
      · exact ⟨.stretch, rawCommand_ext_toNat hrsvd hnb hop⟩
      · exact ⟨.zeroize, rawCommand_ext_toNat hrsvd hnb hop⟩
      · exact ⟨.clrerr, rawCommand_ext_toNat hrsvd hnb hop⟩

theorem commandIssue_error {v : Word} {e : DecodeError} (hdecode : decode v = .error e) (s : State) :
    commandIssue v s = .next (issueIllegal s) := by
  rw [commandIssue, hdecode]

theorem issueIllegal_free {s : State} (hfree : s.pend = none) : issueIllegal s = raiseError .illegalCmd s := by
  rw [issueIllegal, busy_of_pend_none hfree]
  rfl

/-- Settles O2: the formula is that of the fields, an illegal word is rejected when CORE is free, and NOP is encoded
as 0. -/
theorem decodeAcceptsExactlyLegalWords : Obligations.DecodeAcceptsExactlyLegalWords := by
  intro v
  refine ⟨?formula, fun s hillegal hfree => ?illegal, decodeIsInverseOfEncode v .nop⟩
  case formula =>
    simp only [decode, decodeFields_eq_ok_iff, exists_fields_iff, rawCommand_rsvd_toNat, rawCommand_nb_toNat,
      rawCommand_op_toNat]
  case illegal =>
    cases hdecode : decode v with
    | ok i => exact absurd ⟨i, hdecode⟩ hillegal
    | error e => rw [commandIssue_error hdecode, issueIllegal_free hfree]

end Sys2Proof.Machine
end

section
/-! PROOFS. UPDATE and the bytes of its data beyond nb (R84); then WAIT and the expansions of the pseudo-instructions (R90, R241). -/

namespace Sys2Proof.Machine

/-! ### UPDATE reads nb bytes of its snapshot and nothing else of PEND (R84) -/

/-- The first nb bytes of a word are its top `8 * nb` bits. -/
theorem updateBytes_congr {nb : Nat} (hnb : nb ≤ 4) {v w : Word}
    (htop : v.toNat / 2 ^ (32 - 8 * nb) = w.toNat / 2 ^ (32 - 8 * nb)) : updateBytes nb v = updateBytes nb w := by
  refine List.map_congr_left fun k hk => ?_
  have hk' : k < nb := List.mem_range.mp hk
  have hsplit : 2 ^ (24 - 8 * k) = 2 ^ (32 - 8 * nb) * 2 ^ (8 * nb - 8 - 8 * k) := by
    rw [← pow_add]; congr 1; omega
  apply BitVec.eq_of_toNat_eq
  rw [wordByte_toNat, wordByte_toNat, hsplit, ← Nat.div_div_eq_div_mul, ← Nat.div_div_eq_div_mul, htop]

theorem absorb_setPend (pend : Option Pending) (s : State) (b : Byte) :
    absorb { s with pend := pend } b = { absorb s b with pend := pend } := by
  rw [absorb_eq, absorb_eq]
  split <;> rfl

theorem absorbAll_setPend (pend : Option Pending) (bs : List Byte) (s : State) :
    absorbAll bs { s with pend := pend } = { absorbAll bs s with pend := pend } := by
  induction bs generalizing s with
  | nil => rfl
  | cons b bs ih =>
    change absorbAll bs (absorb { s with pend := pend } b) = _
    rw [absorb_setPend, ih]
    rfl

/-- UPDATE's engine step takes its bytes from the snapshot and ends by emptying PEND, so what PEND held does not matter. -/
theorem performUpdate_setPend (nb : Nat) (data : Word) (pend : Option Pending) (s : State) :
    performUpdate nb data { s with pend := pend } = performUpdate nb data s := by
  rw [performUpdate, absorbAll_setPend]
  rfl

/-- UPDATE at the engine's move: UPDATE 0 in every state, the others within the buffer (R103, log 6). -/
theorem exec_update_engine {i : Instr} (hop : i.op = 2) {s : State} {p : Pending} (hm : s.mover = .engine)
    (hp : s.pend = some p) :
    exec i s =
      if i = .update0 then .next (performUpdate (byteCount i) p.data s)
      else withinBuffer (performUpdate (byteCount i) p.data) s := by
  cases i with
  | nop | init | final | stretch | zeroize | clrerr => cases hop
  | update0 =>
    rw [if_pos rfl, exec, execUpdate0, atMoment_engine hm hp]
    rfl
  | update1 | update2 | update3 | update4 =>
    rw [if_neg (by decide)]
    exact atMoment_engine hm hp _ _

theorem withinBuffer_performUpdate_setPend (nb : Nat) (data : Word) (pend : Option Pending) (s : State) :
    withinBuffer (performUpdate nb data) { s with pend := pend } = withinBuffer (performUpdate nb data) s := by
  rw [withinBuffer, performUpdate_setPend]
  rfl

/-- Whose move it is depends on whether a command is pending, not on which. -/
theorem mover_setPend {s : State} {p : Pending} (hp : s.pend = some p) (q : Pending) :
    { s with pend := some q }.mover = s.mover := by
  simp only [State.mover, State.busy, hp, Option.isSome_some]

/-- Settles O32: with equal bytes both snapshots perform the same UPDATE, and it empties PEND. -/
theorem updateIgnoresTheUnusedDataBytes : Obligations.UpdateIgnoresTheUnusedDataBytes := by
  intro i s p q hop hm hp htop
  have hbytes : updateBytes (byteCount i) p.data = updateBytes (byteCount i) q.data :=
    updateBytes_congr (byteCount_le i) htop
  have hdata : performUpdate (byteCount i) p.data = performUpdate (byteCount i) q.data := by
    funext u
    rw [performUpdate, performUpdate, hbytes]
  rw [exec_update_engine hop hm hp, exec_update_engine hop ((mover_setPend hp q).trans hm) rfl, hdata,
    performUpdate_setPend _ _ (some q) s, withinBuffer_performUpdate_setPend _ _ (some q) s]

/-! ### The host's program (R90, R241) -/

theorem step_wait {s : State} {rest : List HostOp} (hm : s.mover = .host) (hprog : s.prog = .wait :: rest) :
    step s = .next (advance (if s.busy then s else complete (statusResponse s) rest s)) := by
  rw [step_host s hm, hostNext, hprog]

/-- Settles O47: a poll with BUSY = 1 leaves the host's program as it is; the read with BUSY = 0 is recorded. -/
theorem waitPollsUntilNotBusy : Obligations.WaitPollsUntilNotBusy := by
  intro s rest hm hprog
  refine ⟨fun hbusy => ?busy, fun hfree => ?free⟩
  case busy =>
    rw [step_wait hm hprog, if_pos hbusy]
    rfl
  case free =>
    rw [step_wait hm hprog, busy_of_pend_none hfree]
    rfl

/-- Settles O48: the expansions are the definition's; the command of PUSH nb is `updateOf nb`. -/
theorem pseudoInstructionsExpandExactly : Obligations.PseudoInstructionsExpandExactly :=
  ⟨fun _ nb => ⟨updateOf nb, updateOf_op nb, byteCount_updateOf nb, rfl⟩, rfl, rfl, fun _ => rfl, rfl, rfl, rfl⟩

end Sys2Proof.Machine
end

section
/-! PROOFS. The hash engine (R100 to R113): the engine steps of INIT, UPDATE and FINAL, each said once, what they make of the absorbed message, and the length of the padding (R110). -/

namespace Sys2Proof.Machine

/-! ### INIT (R101, R102) -/

theorem exec_init_engine {s : State} {p : Pending} (hm : s.mover = .engine) (hp : s.pend = some p) :
    exec .init s = .next (performInit s) := by
  rw [exec, execInit, atMoment_engine hm hp]

/-- With nothing pending, a command without a check of its own is accepted (R208). -/
theorem issue_anyPhase_free (cmd : Instr) {s : State} (hfree : s.pend = none) :
    issue cmd anyPhase s = accept cmd s := by
  rw [issue, busy_of_pend_none hfree]
  rfl

/-- Settles O21: INIT's check refuses no phase, and its engine step reads none. -/
theorem initCreatesAFreshInstance : Obligations.InitCreatesAFreshInstance := by
  refine ⟨by decide, fun s hm hfree => ?accepted, fun s p hm hp => exec_init_engine hm hp⟩
  case accepted =>
    rw [exec_host .init s hm]
    exact congrArg Host.Outcome.next (issue_anyPhase_free .init hfree)

/-- Settles O55. -/
theorem initAbsorbsTheEmptyMessage : Obligations.InitAbsorbsTheEmptyMessage :=
  fun s _ hm hp => ⟨performInit s, exec_init_engine hm hp, performInit_absorbed s, rfl⟩

/-! ### UPDATE (R103 to R105) -/

/-- With the cursor inside the buffer every UPDATE is performed (R103). -/
theorem exec_update_inside {i : Instr} (hop : i.op = 2) {s : State} {p : Pending} (hm : s.mover = .engine)
    (hp : s.pend = some p) (hcur : s.cur.toNat < 64) :
    exec i s = .next (performUpdate (byteCount i) p.data s) := by
  rw [exec_update_engine hop hm hp, withinBuffer_inside hcur, ite_self]

/-- UPDATE whose bytes do not fill the buffer (R103, R104). -/
theorem performUpdate_room {nb : Nat} {s : State} (data : Word) (hroom : s.cur.toNat + nb < 64) :
    performUpdate nb data s =
      { s with
        buf := written s.buf s.cur.toNat (updateBytes nb data), cur := s.cur + BitVec.ofNat 7 nb
        len := s.len + BitVec.ofNat 64 (8 * nb), pend := none } := by
  rw [performUpdate, absorbAll_room _ s (by rwa [updateBytes_length]), updateBytes_length, ← cur_add_ofNat]
  rfl

/-- UPDATE whose bytes fill the buffer: one compression, and the rest goes to the start (R104, R32). -/
theorem performUpdate_wrap {nb : Nat} {s : State} (data : Word) (hcur : s.cur.toNat < 64) (hnb : nb < 64)
    (hfull : 64 ≤ s.cur.toNat + nb) :
    performUpdate nb data s =
      { s with
        h := compressWords s.h (written s.buf s.cur.toNat (updateBytes nb data))
        buf := written (written s.buf s.cur.toNat (updateBytes nb data)) 0
          ((updateBytes nb data).drop (64 - s.cur.toNat))
        cur := BitVec.ofNat 7 (s.cur.toNat + nb - 64), len := s.len + BitVec.ofNat 64 (8 * nb)
        tr := .zero, pend := none } := by
  rw [performUpdate, absorbAll_wrap _ s hcur (by rwa [updateBytes_length]) (by rwa [updateBytes_length]),
    updateBytes_length]
  rfl

/-- Settles O23: the two cases of the cursor against the end of the buffer. -/
theorem updateAppendsItsBytes : Obligations.UpdateAppendsItsBytes := by
  intro i s p hop hm hp hcur
  have hnb := byteCount_le i
  rw [exec_update_inside hop hm hp hcur]
  exact ⟨fun hroom => congrArg _ (performUpdate_room p.data hroom),
    fun hfull => congrArg _ (performUpdate_wrap p.data hcur (by omega) hfull)⟩

theorem performUpdate_zero (data : Word) (s : State) : performUpdate 0 data s = { s with pend := none } := by
  have hlen : s.len + BitVec.ofNat 64 (8 * 0) = s.len := BitVec.add_zero s.len
  rw [performUpdate_frame, hlen]
  rfl

/-- Settles O22: UPDATE 0 is performed wherever the cursor stands. -/
theorem updateOfNoByteChangesNothing : Obligations.UpdateOfNoByteChangesNothing := by
  intro s p hm hp
  rw [exec_update_engine rfl hm hp, if_pos rfl]
  exact congrArg _ (performUpdate_zero p.data s)

/-- Settles O56: an absorbed message keeps the cursor inside the buffer, so UPDATE is performed and extends it. -/
theorem updateExtendsTheAbsorbedMessage : Obligations.UpdateExtendsTheAbsorbedMessage := by
  intro i m s p hop hm hp hs hroom
  exact ⟨_, exec_update_inside hop hm hp hs.buffered.cursor_lt,
    performUpdate_absorbed hs (byteCount i) p.data (by omega), performUpdate_phase ..⟩

/-! ### FINAL (R106 to R112) -/

/-- Settles O24. -/
theorem finalLatchesThePaddedDigest : Obligations.FinalLatchesThePaddedDigest := by
  intro s p hm hp hcur
  calc exec .final s
    _ = withinBuffer performFinal s := atMoment_engine hm hp _ _
    _ = .next (performFinal s) := withinBuffer_inside hcur _
    _ = _ := congrArg _ (performFinal_eq s hcur)

/-- Settles O57: the padded buffer's digest is SHA256 of the absorbed message. -/
theorem finalComputesSha256OfTheMessage : Obligations.FinalComputesSha256OfTheMessage := by
  intro m s p hm hp hs
  exact ⟨_, finalLatchesThePaddedDigest s p hm hp hs.buffered.cursor_lt, hs.finalDigest_eq, rfl, rfl⟩

/-! ### The length of the padding (R110) -/

/-- Settles O54: z is below 64, and every number of zeros that fills a block is z modulo 64. -/
theorem paddingIsLeast : Obligations.PaddingIsLeast := by
  intro L
  have hzeros : padZeros L = (119 - L % 64) % 64 := rfl
  have hfills (z : Nat) : (L + 1 + z + 8) % 64 = 0 ↔ z % 64 = padZeros L := by omega
  have hlt : padZeros L < 64 := by omega
  refine ⟨(hfills _).mpr (Nat.mod_eq_of_lt hlt), fun z hz hfull => ?_⟩
  have hz64 : z % 64 = z := Nat.mod_eq_of_lt (hz.trans hlt)
  exact absurd (hz64.symm.trans ((hfills z).mp hfull)) hz.ne

end Sys2Proof.Machine
end

section
/-! PROOFS. The compression function (R131 to R142): what its functions do to each bit of a word, the round constants, the message schedule, one COMPRESS, and SHA256 of a message that fits one block. -/

namespace Sys2Proof.Machine

/-! ### The functions on words (R131 to R137) -/

/-- Settles O5: the bits of the two formulas, then the three input bits case by case. -/
theorem chChoosesAndMajTakesTheMajority : Obligations.ChChoosesAndMajTakesTheMajority := by
  refine ⟨fun x y z => ⟨rfl, rfl, fun i hi => ?_⟩, by decide, by decide⟩
  simp only [ch, maj, BitVec.getLsbD_xor, BitVec.getLsbD_and, BitVec.getLsbD_not, hi, decide_true, Bool.true_and]
  cases x.getLsbD i <;> cases y.getLsbD i <;> cases z.getLsbD i <;> decide

theorem getLsbD_shr (x : Word) (n i : Nat) : (shr x n).getLsbD i = x.getLsbD (i + n) := by
  rw [shr, BitVec.getLsbD_ushiftRight, Nat.add_comm]

/-- Settles O6: each function is an exclusive or of rotations and shifts, whose bits are `getLsbD_rotr` and `getLsbD_shr`. -/
theorem sigmaAndGammaRotateByTheirAmounts : Obligations.SigmaAndGammaRotateByTheirAmounts := by
  refine ⟨fun x i hi => ?_, by decide⟩
  have hrotr (n : Nat) (hn : n < 32) : (rotr x n).getLsbD i = x.getLsbD ((i + n) % 32) := getLsbD_rotr x hn hi
  simp [bigSigma0, bigSigma1, gamma0, gamma1, hrotr, getLsbD_shr]

/-! ### The round constants (R135) -/

/-- The first 64 primes. -/
def firstPrimes : List Nat :=
  [2, 3, 5, 7, 11, 13, 17, 19, 23, 29, 31, 37, 41, 43, 47, 53] ++
  [59, 61, 67, 71, 73, 79, 83, 89, 97, 101, 103, 107, 109, 113, 127, 131] ++
  [137, 139, 149, 151, 157, 163, 167, 173, 179, 181, 191, 193, 197, 199, 211, 223] ++
  [227, 229, 233, 239, 241, 251, 257, 263, 269, 271, 277, 281, 283, 293, 307, 311]

/-- Trial division of every number up to 311 finds exactly `firstPrimes`. -/
theorem firstPrimes_eq_filter :
    firstPrimes =
      (List.range 312).filter (fun n => decide (2 ≤ n) && (List.range n).all fun d => decide (d < 2) || n % d != 0) := by
  decide +kernel

/-- The integer part of the root is below 7, because 311 < 7 ^ 3; so each row of the table is a finite check. -/
theorem roundConstant_cubeRoot : ∀ t < 64, ∃ a < 7,
    (a * 2 ^ 32 + (roundConstant t).toNat) ^ 3 ≤ firstPrimes.getD t 0 * 2 ^ 96 ∧
    firstPrimes.getD t 0 * 2 ^ 96 < (a * 2 ^ 32 + (roundConstant t).toNat + 1) ^ 3 := by
  decide +kernel

/-- Settles O7: the list is found by trial division, the bounds row by row. -/
theorem roundConstantsAreCubeRootsOfPrimes : Obligations.RoundConstantsAreCubeRootsOfPrimes := by
  refine ⟨firstPrimes, firstPrimes_eq_filter, rfl, fun t ht => ?_⟩
  obtain ⟨a, -, hroot⟩ := roundConstant_cubeRoot t ht
  exact ⟨a, hroot⟩

/-! ### The message schedule (R138) -/

theorem scheduleWord_eq_getElem (w : Vector Word 64) {i : Nat} (hi : i < 64) : scheduleWord w i = w[i] :=
  toList_getD w i hi 0

theorem scheduleWord_scheduleHead (block : Vector Byte 64) {t : Nat} (ht : t < 16) :
    scheduleWord (scheduleHead block) t =
      be32 (block.toList.getD (4 * t) 0) (block.toList.getD (4 * t + 1) 0)
        (block.toList.getD (4 * t + 2) 0) (block.toList.getD (4 * t + 3) 0) := by
  rw [scheduleWord_eq_getElem _ (by omega), scheduleHead, Vector.getElem_ofFn, dif_pos ht,
    toList_getD _ _ (by omega), toList_getD _ _ (by omega), toList_getD _ _ (by omega), toList_getD _ _ (by omega)]

theorem scheduleWord_scheduleStep_same (w : Vector Word 64) {t : Nat} (ht : t < 64) :
    scheduleWord (scheduleStep w t) t =
      gamma1 (scheduleWord w (t - 2)) + scheduleWord w (t - 7) + gamma0 (scheduleWord w (t - 15)) +
        scheduleWord w (t - 16) := by
  rw [scheduleWord_eq_getElem _ ht, scheduleStep, Vector.getElem_setIfInBounds_self]

theorem scheduleWord_scheduleStep_of_ne (w : Vector Word 64) {t i : Nat} (hne : t ≠ i) :
    scheduleWord (scheduleStep w t) i = scheduleWord w i := by
  rw [scheduleWord, scheduleStep, Vector.toList_setIfInBounds, List.getD_eq_getElem?_getD, List.getElem?_set_ne hne,
    ← List.getD_eq_getElem?_getD, scheduleWord]

theorem scheduleWord_foldl_of_notMem (ts : List Nat) (w : Vector Word 64) {i : Nat} (hi : i ∉ ts) :
    scheduleWord (ts.foldl scheduleStep w) i = scheduleWord w i := by
  induction ts generalizing w with
  | nil => rfl
  | cons t ts ih =>
    obtain ⟨hne, hnot⟩ := not_or.mp (mt List.mem_cons.mpr hi)
    rw [List.foldl_cons, ih _ hnot, scheduleWord_scheduleStep_of_ne _ (Ne.symm hne)]

/-- The schedule after its first `k` steps: the words below `16 + k` are computed. -/
def scheduledTo (block : Vector Byte 64) (k : Nat) : Vector Word 64 :=
  (List.range' 16 k).foldl scheduleStep (scheduleHead block)

theorem scheduledTo_succ (block : Vector Byte 64) (k : Nat) :
    scheduledTo block (k + 1) = scheduleStep (scheduledTo block k) (16 + k) := by
  rw [scheduledTo, List.range'_1_concat, List.foldl_append]
  rfl

theorem schedule_eq_scheduledTo (block : Vector Byte 64) : schedule block = scheduledTo block 48 := by
  unfold schedule scheduledTo
  rfl

/-- A computed word is never written again: the steps after the first `k` write words from `16 + k` on. -/
theorem scheduleWord_schedule (block : Vector Byte 64) {k i : Nat} (hk : k ≤ 48) (hi : i < 16 + k) :
    scheduleWord (schedule block) i = scheduleWord (scheduledTo block k) i := by
  have hsteps : List.range' 16 48 = List.range' 16 k ++ List.range' (16 + k) (48 - k) := by
    rw [List.range'_append_1, Nat.add_sub_of_le hk]
  have hlater : i ∉ List.range' (16 + k) (48 - k) := by
    rw [List.mem_range'_1]; omega
  rw [schedule_eq_scheduledTo, scheduledTo, hsteps, List.foldl_append, ← scheduledTo,
    scheduleWord_foldl_of_notMem _ _ hlater]

/-- Settles O8: W[t] is final after step t, and the four words the step reads were final before it. -/
theorem scheduleFollowsRecurrence : Obligations.ScheduleFollowsRecurrence := by
  refine fun block t => ⟨fun ht => ?head, fun hlow hhigh => ?recurrence⟩
  case head =>
    rw [scheduleWord_schedule block (Nat.zero_le 48) ht]
    exact scheduleWord_scheduleHead block ht
  case recurrence =>
    obtain ⟨k, rfl⟩ := Nat.exists_eq_add_of_le hlow
    have hread (i : Nat) (hi : i < 16 + k) : scheduleWord (schedule block) i = scheduleWord (scheduledTo block k) i :=
      scheduleWord_schedule block (by omega) hi
    rw [scheduleWord_schedule block (k := k + 1) (by omega) (by omega), scheduledTo_succ,
      scheduleWord_scheduleStep_same _ hhigh, hread _ (by omega), hread _ (by omega), hread _ (by omega),
      hread _ (by omega)]

/-! ### The rounds and COMPRESS (R139 to R141) -/

/-- Settles O9: the two temporaries are those of the definition. -/
theorem roundRelabelsTheWorkingVariables : Obligations.RoundRelabelsTheWorkingVariables :=
  fun _ _ _ => ⟨_, _, rfl, rfl, rfl⟩

/-- Settles O10: the transients are those of `compress_tr`. -/
theorem compressAddsTheRoundsToTheHashState : Obligations.CompressAddsTheRoundsToTheHashState := by
  refine fun s => ⟨(compress s).tr, ?_, rfl⟩
  rw [compress_tr, runRounds, loadWorking]

/-- Settles O11: the law `compress_h`. -/
theorem compressIsAFunctionOfHashAndBlock : Obligations.CompressIsAFunctionOfHashAndBlock :=
  compress_h

/-! ### SHA256 of a message that fits one block (R110, R142) -/

theorem sha256_of_length_lt {m : List Byte} (hm : m.length < 56) :
    sha256 m = compressWords initialHash (messageBlock (padMessage m) 0) := by
  have hzeros : padZeros m.length = 55 - m.length := by unfold padZeros; omega
  have hblocks : (padMessage m).length / 64 = 1 := by rw [padMessage_length]; omega
  rw [sha256, hblocks, hashBlocks_succ, hashBlocks_zero]

/-- Settles O12: each message is padded to one block, so each vector is one evaluation of the compression function. -/
theorem sha256OfTheOfficialVectors : Obligations.Sha256OfTheOfficialVectors := by
  refine ⟨?empty, ?abc⟩
  case empty =>
    rw [sha256_of_length_lt (by decide)]
    decide +kernel
  case abc =>
    rw [sha256_of_length_lt (by decide)]
    decide +kernel

end Sys2Proof.Machine
end

section
/-! PROOFS. STRETCH (R160 to R167): its engine step, that with count 0 it is FINAL's, and that it iterates SHA256. -/

namespace Sys2Proof.Machine

theorem exec_stretch_engine {s : State} {p : Pending} (hm : s.mover = .engine) (hp : s.pend = some p) :
    exec .stretch s = withinBuffer (performStretch p.iter) s :=
  atMoment_engine hm hp _ _

theorem exec_final_engine {s : State} {p : Pending} (hm : s.mover = .engine) (hp : s.pend = some p) :
    exec .final s = withinBuffer performFinal s :=
  atMoment_engine hm hp _ _

/-- N = iter[30:0] (R85). -/
theorem stretchCount_toNat (iter : Word) : (stretchCount iter).toNat = iter.toNat % 2 ^ 31 :=
  BitVec.toNat_setWidth 31 iter

/-- Settles O25. -/
theorem stretchRehashesTheDigest : Obligations.StretchRehashesTheDigest := by
  intro s p hm hp hcur
  rw [exec_stretch_engine hm hp, withinBuffer_inside hcur, performStretch_eq _ s hcur, stretchCount_toNat]

/-- With count 0 the digest of the padded message is re-hashed no time (R165). -/
theorem performStretch_zero : performStretch 0 = performFinal := by
  funext s
  have hcount : (stretchCount 0).toNat = 0 := rfl
  rw [performStretch_digested, performFinal_digested, hcount, Function.iterate_zero_apply]

/-- Settles O26: both are performed within the buffer only, and there their effects agree. -/
theorem stretchOfCountZeroIsFinal : Obligations.StretchOfCountZeroIsFinal := by
  intro s p hm hp hzero
  rw [exec_stretch_engine hm hp, exec_final_engine hm hp, hzero, performStretch_zero]

/-- Settles O59: the padded 32 digest bytes are the one block BLOCK_i. -/
theorem rehashIsOneCompression : Obligations.RehashIsOneCompression :=
  sha256_bytesOfWords

/-- Settles O58: the finalized digest is SHA256 of the absorbed message, and each re-hash applies SHA256 to its bytes. -/
theorem stretchComputesTheIteratedDigest : Obligations.StretchComputesTheIteratedDigest := by
  intro m s p hm hp hs
  refine ⟨_, stretchRehashesTheDigest s p hm hp hs.buffered.cursor_lt, ?dig, rfl⟩
  case dig =>
    rw [stretchDigest_eq_iterate, ← hs.finalDigest_eq]
    rfl

end Sys2Proof.Machine
end

section
/-! PROOFS. The control commands (R180 to R182): NOP and CLRERR, which take effect at acceptance, and ZEROIZE, which goes through PEND. -/

namespace Sys2Proof.Machine

/-! ### Commands that take effect at acceptance (R180, R182) -/

theorem issueAtOnce_free (effect : State → State) {s : State} (hfree : s.pend = none) :
    issueAtOnce effect s = effect s := by
  rw [issueAtOnce, busy_of_pend_none hfree]
  rfl

theorem issueAtOnce_busy (effect : State → State) {s : State} (hbusy : s.busy = true) :
    issueAtOnce effect s = raiseError .busyWrite s := if_pos hbusy

theorem exec_nop_host {s : State} (hm : s.mover = .host) : exec .nop s = .next (issueAtOnce id s) :=
  exec_host .nop s hm

theorem exec_clrerr_host {s : State} (hm : s.mover = .host) : exec .clrerr s = .next (issueAtOnce clearError s) :=
  exec_host .clrerr s hm

/-- Settles O14: NOP is issued at once, and its effect is the identity. -/
theorem nopHasNoEffect : Obligations.NopHasNoEffect := by
  intro s hm
  rw [exec_nop_host hm]
  refine ⟨fun hfree => ?free, fun hbusy => ?busy⟩
  case free => rw [issueAtOnce_free id hfree, id]
  case busy => rw [issueAtOnce_busy id hbusy]

/-- Settles O15: CLRERR is issued at once, and its effect is to clear the error record. -/
theorem clrerrClearsTheErrorRecord : Obligations.ClrerrClearsTheErrorRecord := by
  intro s hm
  rw [exec_clrerr_host hm]
  refine ⟨fun hfree => ?free, fun hbusy => ?busy⟩
  case free => rw [issueAtOnce_free clearError hfree, clearError]
  case busy => rw [issueAtOnce_busy clearError hbusy]

/-! ### ZEROIZE (R181) -/

theorem exec_zeroize_engine {s : State} {p : Pending} (hm : s.mover = .engine) (hp : s.pend = some p) :
    exec .zeroize s = .next (performZeroize s) := by
  rw [exec, execZeroize, atMoment_engine hm hp]

theorem exec_zeroize_free {s : State} (hm : s.mover = .host) (hfree : s.pend = none) :
    exec .zeroize s = .next (accept .zeroize s) := by
  rw [← issue_anyPhase_free .zeroize hfree]
  exact exec_host .zeroize s hm

/-- Settles O27: ZEROIZE's check refuses no phase, and its engine step reads none. -/
theorem zeroizeScrubsEverySensitiveElement : Obligations.ZeroizeScrubsEverySensitiveElement :=
  ⟨by decide, fun _ hm hfree => exec_zeroize_free hm hfree, fun _ _ hm hp => exec_zeroize_engine hm hp⟩

end Sys2Proof.Machine
end

section
/-! PROOFS. Errors and the acceptance of commands (60_exceptions.md R200 to R208): CORE never halts, what a step does to ERR and CAUSE, and the checks of CommandIssue, said once in their order. -/

namespace Sys2Proof.Machine

/-! ### CORE does not halt (R200) -/

/-- Settles O52: the invariant keeps the cursor inside the buffer, the one premise of a performed command. -/
theorem coreNeverHalts : Obligations.CoreNeverHalts := by
  intro s hinv
  cases hm : s.mover with
  | reset => exact ⟨_, step_reset s hm⟩
  | host => exact ⟨_, step_host s hm⟩
  | engine =>
    cases hp : s.pend with
    | none => exact ⟨_, step_engine_idle s hm hp⟩
    | some p => exact ⟨_, step_engine s p hm hp hinv.cursor⟩

/-! ### The first error (R203) -/

theorem raiseError_of_err {s : State} (herr : s.err = true) (c : Cause) : raiseError c s = s := if_pos herr

theorem raiseError_of_not_err {s : State} (herr : s.err = false) (c : Cause) :
    raiseError c s = { s with err := true, cause := c } := by
  rw [raiseError, herr]
  rfl

/-- A move of the host keeps a recorded error, unless it is an accepted CLRERR. -/
theorem HostEffect.error_kept {s u : State} (hu : HostEffect s u) (herr : s.err = true) :
    (u.err = true ∧ u.cause = s.cause) ∨
      (s.pend = none ∧ ∃ rest, s.prog = .write 0x00 .four (encode .clrerr) :: rest) := by
  cases hu with
  | raised c => exact .inl (by rw [raiseError_of_err herr]; exact ⟨herr, rfl⟩)
  | unchanged | dataIn | iter | accepted => exact .inl ⟨herr, rfl⟩
  | cleared v rest hfree hprog hword =>
    have hv : v = encode .clrerr := (decodeIsInverseOfEncode v .clrerr).mp hword
    exact .inr ⟨hfree, rest, hv ▸ hprog⟩

/-- The engine step of a command that goes through PEND writes neither ERR nor CAUSE. -/
theorem EngineEffect.error_kept {p : Pending} {s u : State} (hu : EngineEffect p s u)
    (hkind : goesThroughPend p.cmd = true) : u.err = s.err ∧ u.cause = s.cause := by
  cases hu with
  | update => exact ⟨performUpdate_err .., performUpdate_cause ..⟩
  | init | digest | zeroize => exact ⟨rfl, rfl⟩
  | nop hcmd | clrerr hcmd => rw [hcmd] at hkind; cases hkind

/-- Settles O40: by the effects of a step on ERR and CAUSE; CLRERR is never pending. -/
theorem firstErrorIsKeptUntilCleared : Obligations.FirstErrorIsKeptUntilCleared := by
  refine ⟨fun c s => ⟨fun herr => raiseError_of_not_err herr c, fun herr => raiseError_of_err herr c⟩, ?step⟩
  intro s t hinv hstep herr
  rcases step_effect hstep with ⟨hm, -⟩ | ⟨hm, u, hu, hcore⟩ | ⟨-, -, hcore⟩ | ⟨-, p, hp, u, hu, hcore⟩
  · exact .inr (.inl hm)
  · rw [hcore.err, hcore.cause]
    exact (hu.error_kept herr).imp_right fun hclear => .inr ⟨hm, hclear⟩
  · exact .inl ⟨hcore.err.trans herr, hcore.cause⟩
  · obtain ⟨hu_err, hu_cause⟩ := hu.error_kept (hinv.pending p hp).kind
    exact .inl ⟨hcore.err.trans (hu_err.trans herr), hcore.cause.trans hu_cause⟩

/-! ### The checks of CommandIssue (R204 to R208) -/

theorem updateCheck_eq (nb : Nat) (s : State) :
    updateCheck nb s =
      if s.phase ≠ .active then some .sequence
      else if s.len.toNat + 8 * nb > 2 ^ 64 - 1 then some .lenOverflow else none := by
  by_cases hactive : s.phase = .active <;> simp [updateCheck, needsActive, hactive]

theorem stretchCheck_eq (s : State) :
    stretchCheck s =
      if s.phase ≠ .active then some .sequence else if negativeCount s.iter then some .negIter else none := by
  by_cases hactive : s.phase = .active <;> simp [stretchCheck, needsActive, hactive]

/-- The checks of a command beside BUSY, in their order: SEQUENCE, then NEG_ITER or LEN_OVERFLOW (R204 to R206, R208). -/
theorem commandCheck_eq (i : Instr) (s : State) :
    commandCheck i s =
      if needsInstance i = true ∧ s.phase ≠ .active then some .sequence
      else if i = .stretch ∧ negativeCount s.iter = true then some .negIter
      else if i.op = 2 ∧ s.len.toNat + 8 * byteCount i > 2 ^ 64 - 1 then some .lenOverflow
      else none := by
  cases i with
  | nop | init | zeroize | clrerr => rfl
  | final => simp [commandCheck, needsActive, needsInstance, Instr.op]
  | update0 | update1 | update2 | update3 | update4 =>
    simp [commandCheck, updateCheck_eq, needsInstance, Instr.op, byteCount, Instr.nb]
  | stretch => simp [commandCheck, stretchCheck_eq, needsInstance, Instr.op]

theorem negativeCount_iff (iter : Word) : negativeCount iter = true ↔ 2 ^ 31 ≤ iter.toNat := by
  rw [negativeCount, BitVec.msb_eq_decide, decide_eq_true_iff]

theorem exec_busy {s : State} (hm : s.mover = .host) (hbusy : s.busy = true) (i : Instr) :
    exec i s = .next (raiseError .busyWrite s) := by
  rw [exec_host i s hm]
  cases i with
  | nop | clrerr => exact congrArg _ (issueAtOnce_busy _ hbusy)
  | init | update0 | update1 | update2 | update3 | update4 | final | stretch | zeroize =>
    exact congrArg _ (if_pos hbusy)

/-- A command that fails a check captures that check's cause and changes nothing else (R208). -/
theorem exec_rejected {i : Instr} {s : State} {c : Cause} (hm : s.mover = .host) (hfree : s.pend = none)
    (hcheck : commandCheck i s = some c) : exec i s = .next (raiseError c s) := by
  rw [exec_host i s hm]
  cases i with
  | nop | init | zeroize | clrerr => cases hcheck
  | update0 | update1 | update2 | update3 | update4 | final | stretch =>
    rw [issued, issue, busy_of_pend_none hfree, hcheck]
    rfl

/-- A command that goes through PEND and passes its checks is put into PEND (R208). -/
theorem exec_accepted {i : Instr} {s : State} (hm : s.mover = .host) (hfree : s.pend = none)
    (hkind : goesThroughPend i = true) (hcheck : commandCheck i s = none) : exec i s = .next (accept i s) := by
  rw [exec_host i s hm]
  cases i with
  | nop | clrerr => cases hkind
  | init | zeroize | update0 | update1 | update2 | update3 | update4 | final | stretch =>
    rw [issued, issue, busy_of_pend_none hfree, hcheck]
    rfl

/-- Settles O13: none of the three checks fails. -/
theorem checkedCommandIsAccepted : Obligations.CheckedCommandIsAccepted := by
  intro i s hm hfree hkind hphase hcount hroom
  refine exec_accepted hm hfree hkind ?_
  rw [commandCheck_eq, if_neg fun h => h.2 (hphase h.1), if_neg, if_neg fun h => absurd h.2 (by omega)]
  rintro ⟨hstretch, hnegative⟩
  exact absurd ((negativeCount_iff _).mp hnegative) (not_le.mpr (hcount hstretch))

/-- Settles O17: the check of PHASE is the first. -/
theorem commandWithoutInstanceIsRejected : Obligations.CommandWithoutInstanceIsRejected := by
  intro i s hm hfree hneeds hphase
  exact exec_rejected hm hfree (by rw [commandCheck_eq, if_pos ⟨hneeds, hphase⟩])

/-- Settles O18. -/
theorem negativeCountIsRejected : Obligations.NegativeCountIsRejected := by
  intro s hm hfree hactive hcount
  have hnegative := (negativeCount_iff s.iter).mpr hcount
  exact exec_rejected hm hfree
    (by rw [commandCheck_eq, if_neg fun h => h.2 hactive, if_pos ⟨rfl, hnegative⟩])

/-- Settles O19: UPDATE 0 adds nothing to LEN, which is below 2^64. -/
theorem lengthOverflowIsRejected : Obligations.LengthOverflowIsRejected := by
  refine ⟨fun i s hm hfree hactive hop hover => ?overflow, fun s hm hfree hactive => ?zero⟩
  case overflow =>
    have hstretch : i ≠ .stretch := by rintro rfl; cases hop
    exact exec_rejected hm hfree (by
      rw [commandCheck_eq, if_neg fun h => h.2 hactive, if_neg fun h => hstretch h.1, if_pos ⟨hop, hover⟩])
  case zero =>
    have hlen := s.len.isLt
    exact checkedCommandIsAccepted .update0 s hm hfree rfl (fun _ => hactive) (fun h => by cases h)
      (Nat.le_sub_one_of_lt hlen)

/-! ### CommandIssue of any word (R202, R208) -/

theorem commandIssue_encode (i : Instr) (s : State) : commandIssue (encode i) s = exec i s := by
  rw [commandIssue, decode_encode]

/-- Every command word is legal: the family of Laws.LegalWord as one statement. -/
theorem legal_encode : ∀ i : Instr, legal (encode i) = true
  | .nop => Laws.LegalWord.nop
  | .init => Laws.LegalWord.init
  | .update0 => Laws.LegalWord.update0
  | .update1 => Laws.LegalWord.update1
  | .update2 => Laws.LegalWord.update2
  | .update3 => Laws.LegalWord.update3
  | .update4 => Laws.LegalWord.update4
  | .final => Laws.LegalWord.final
  | .stretch => Laws.LegalWord.stretch
  | .zeroize => Laws.LegalWord.zeroize
  | .clrerr => Laws.LegalWord.clrerr

/-- The formula of R86 accepts the command words and nothing else (R87). -/
theorem legal_iff_exists_encode (v : Word) : legal v = true ↔ ∃ i, v = encode i := by
  constructor
  · intro h
    have hfields : ∃ i : Instr, rawCommand v = i.fields := by
      rw [exists_fields_iff]
      simp only [legal, Bool.and_eq_true, Bool.or_eq_true, beq_iff_eq, decide_eq_true_eq, List.contains_iff_mem] at h
      simpa [rawCommand, ← BitVec.toNat_inj] using h
    exact hfields.imp fun i hi => (rawCommand_eq_iff v i.fields).mp hi
  · rintro ⟨i, rfl⟩
    exact legal_encode i

theorem encode_op_toNat (i : Instr) : (encode i).toNat % 16 = i.op.toNat := by
  rw [← rawCommand_op_toNat, encode_eq_word, rawCommand_word]
  rfl

theorem encode_nb_toNat (i : Instr) : (encode i).toNat / 16 % 8 = byteCount i := by
  rw [← rawCommand_nb_toNat, encode_eq_word, rawCommand_word]
  rfl

theorem commandIssue_illegal {v : Word} (hillegal : legal v = false) (s : State) :
    commandIssue v s = .next (issueIllegal s) := by
  cases hdecode : decode v with
  | error e => exact commandIssue_error hdecode s
  | ok i =>
    rw [(decodeIsInverseOfEncode v i).mp hdecode, legal_encode] at hillegal
    cases hillegal

/-- While a command is pending every word written to CMD is rejected with BUSY_WRITE, legal or not (R207, R208). -/
theorem commandIssue_busy {s : State} (hm : s.mover = .host) (hbusy : s.busy = true) (v : Word) :
    commandIssue v s = .next (raiseError .busyWrite s) := by
  cases hlegal : legal v with
  | true =>
    obtain ⟨i, rfl⟩ := (legal_iff_exists_encode v).mp hlegal
    rw [commandIssue_encode, exec_busy hm hbusy]
  | false => rw [commandIssue_illegal hlegal, issueIllegal, if_pos hbusy]

/-- Settles O16: BUSY is checked before everything else, and no read checks it for an error. -/
theorem writesWhileBusyAreRejected : Obligations.WritesWhileBusyAreRejected := by
  intro s hbusy
  refine ⟨fun i hm => exec_busy hm hbusy i, fun off v hm hoff => ?write, rfl, rfl, fun off => regRead_unspecified hbusy⟩
  case write =>
    simp only [List.mem_cons, List.not_mem_nil, or_false] at hoff
    rcases hoff with rfl | rfl | rfl
    · exact commandIssue_busy hm hbusy v
    all_goals
      rw [regWrite_aligned (by decide) (by decide)]
      exact congrArg _ (if_pos hbusy)

/-- What each check of CommandIssue reads of OP, for a legal word (R82). -/
theorem op_toNat_iff (i : Instr) :
    (i.op.toNat ∈ [2, 3, 4] ↔ needsInstance i = true) ∧ (i.op.toNat = 4 ↔ i = .stretch) ∧
      (i.op.toNat = 2 ↔ i.op = 2) ∧ (i.op.toNat = 0 ↔ i = .nop) ∧ (i.op.toNat = 6 ↔ i = .clrerr) := by
  cases i <;> decide

theorem goesThroughPend_iff (i : Instr) : goesThroughPend i = true ↔ i ≠ .nop ∧ i ≠ .clrerr := by
  cases i <;> decide

theorem negativeCount_getLsbD (iter : Word) : negativeCount iter = iter.getLsbD 31 :=
  BitVec.msb_eq_getLsbD_last iter

/-- Settles O20: for a legal word the conditions are those of its command's check, so the chain and `commandCheck_eq`
are split together; an illegal word is no command. -/
theorem commandIssueChecksInOrder : Obligations.CommandIssueChecksInOrder := by
  intro v s hm
  cases hlegal : legal v with
  | false =>
    refine ⟨.nop, (fun h => by cases h), ?_⟩
    rw [commandIssue_illegal hlegal, issueIllegal, if_pos rfl]
  | true =>
    obtain ⟨i, rfl⟩ := (legal_iff_exists_encode v).mp hlegal
    refine ⟨i, fun _ => rfl, ?_⟩
    obtain ⟨hneeds, hstretch, hupdate, hnop, hclrerr⟩ := op_toNat_iff i
    rw [commandIssue_encode]
    simp only [Bool.true_eq_false, if_false, encode_op_toNat, encode_nb_toNat, hneeds, hstretch, hupdate, hnop, hclrerr,
      ← negativeCount_getLsbD]
    by_cases hbusy : s.busy = true
    · rw [if_pos hbusy, exec_busy hm hbusy]
    have hfree : s.pend = none := by simpa [State.busy] using hbusy
    have hcheck := commandCheck_eq i s
    rw [if_neg hbusy]
    split_ifs at hcheck ⊢ with hseq hneg hover hnopcmd hclrcmd
    · exact exec_rejected hm hfree hcheck
    · exact exec_rejected hm hfree hcheck
    · exact exec_rejected hm hfree hcheck
    · rw [hnopcmd, exec_nop_host hm, issueAtOnce_free id hfree, id]
    · rw [hclrcmd, exec_clrerr_host hm, issueAtOnce_free clearError hfree, clearError]
    · exact exec_accepted hm hfree ((goesThroughPend_iff i).mpr ⟨hnopcmd, hclrcmd⟩) hcheck

end Sys2Proof.Machine
end

section
/-! PROOFS. Several instances in one system (60_exceptions.md R224): a step of one of them, and an access routed to one, reach no other. -/

namespace Sys2Proof.Machine

/-- All that a system's step which answers a next system can do: nothing when the k-th state does not exist, else a step of that state. -/
theorem systemStep_cases {k : Nat} {sys sys' : List State} (h : systemStep k sys = .next sys') :
    (sys[k]? = none ∧ sys' = sys) ∨
      ∃ s t, sys[k]? = some s ∧ step s = .next t ∧ sys' = sys.set k t := by
  unfold systemStep at h
  cases hk : sys[k]? with
  | none => rw [hk] at h; cases h; exact .inl ⟨rfl, rfl⟩
  | some s =>
    rw [hk] at h
    cases hstep : step s with
    | next t => simp only [hstep] at h; cases h; exact .inr ⟨s, t, rfl, hstep, rfl⟩
    | fault r | refused r => simp only [hstep] at h; cases h

theorem systemStep_next {k : Nat} {sys : List State} {s t : State} (hk : sys[k]? = some s) (hstep : step s = .next t) :
    systemStep k sys = .next (sys.set k t) := by
  simp only [systemStep, hk, hstep]

theorem getElem?_set_self_of_some {k : Nat} {sys : List State} {s : State} (hk : sys[k]? = some s) (t : State) :
    (sys.set k t)[k]? = some t := by
  obtain ⟨hlt, -⟩ := List.getElem?_eq_some_iff.mp hk
  exact List.getElem?_set_self hlt

/-- An address in the k-th window is routed to k: no other window holds it (R50, R224). -/
theorem route_eq_some {n k addr : Nat} {off : Offset} (hk : k < n) (hoff : windowOffset k addr = some off) :
    route n addr = some (k, off) := by
  obtain ⟨-, -, hdisjoint⟩ := windowOfSixtyFourBytesAtBase
  cases hroute : route n addr with
  | none =>
    have hnone := List.findSome?_eq_none_iff.mp hroute k (List.mem_range.mpr hk)
    rw [hoff] at hnone
    cases hnone
  | some r =>
    obtain ⟨j, -, hj⟩ := List.exists_of_findSome?_eq_some hroute
    obtain ⟨off', hoff', rfl⟩ := Option.map_eq_some_iff.mp hj
    obtain rfl := hdisjoint k j addr off off' hoff hoff'
    rw [hoff] at hoff'
    cases hoff'
    rfl

/-- Settles O49: a step replaces the k-th state, an access changes the state it is routed to. -/
theorem instancesShareNoState : Obligations.InstancesShareNoState := by
  refine ⟨fun n k hk => ?start, fun k sys s t hk hstep => ?step, fun k sys sys' hsys => ?only,
    fun k addr off access sys hk hoff => ?place⟩
  case start => exact List.getElem?_replicate_of_lt hk
  case step =>
    exact ⟨_, systemStep_next hk hstep, getElem?_set_self_of_some hk t, fun j hj => List.getElem?_set_ne hj.symm⟩
  case only =>
    rcases systemStep_cases hsys with ⟨hnone, rfl⟩ | ⟨s, t, hk, hstep, rfl⟩
    · exact ⟨(fun s hs => by rw [hnone] at hs; cases hs), fun _ _ => rfl, rfl⟩
    · refine ⟨fun u hu => ?_, fun j hj => List.getElem?_set_ne hj.symm, List.length_set⟩
      rw [hk] at hu
      cases hu
      exact ⟨t, hstep, getElem?_set_self_of_some hk t⟩
  case place =>
    have hplace : systemPlace addr access sys = sys.modify k (placeMove (access off)) := by
      simp only [systemPlace, route_eq_some hk hoff]
    rw [hplace]
    exact ⟨List.getElem?_modify_eq .., fun j hj => List.getElem?_modify_ne _ _ hj.symm⟩

end Sys2Proof.Machine
end

section
/-! PROOFS. Reset and hazards (70_reset_and_hazards.md): a pending command is performed once the engine moves (R240), what reset clears, and that it abandons what is pending (R230, R231). -/

namespace Sys2Proof.Machine

/-! ### A pending command is performed (R240) -/

theorem mover_of_schedule {s : State} {a : Agent} {rest : List Agent} (hsched : s.sched = a :: rest) : s.mover = a := by
  rw [State.mover, hsched]

/-- When the schedule has run out, the engine moves while a command is pending (log 1). -/
theorem mover_of_schedule_over {s : State} (hsched : s.sched = []) (hbusy : s.busy = true) : s.mover = .engine := by
  simp only [State.mover, hsched, hbusy, if_true]

theorem busy_of_pend_some {s : State} {p : Pending} (hp : s.pend = some p) : s.busy = true := by
  rw [State.busy, hp]
  rfl

theorem run_succ {M : Host.Core} {s t : M.State} (hstep : M.step s = .next t) (n : Nat) : M.run (n + 1) s = M.run n t := by
  rw [Host.Core.run, hstep]

/-- The host's move while a command is pending uses one entry of the schedule, and keeps the command and the engine's elements (R63). -/
theorem step_host_pending {s : State} {p : Pending} (hm : s.mover = .host) (hp : s.pend = some p) :
    ∃ u, step s = .next u ∧ u.sched = s.sched.tail ∧ u.pend = some p ∧ SameEngine u s := by
  have hframe := hostNext_frame_of_busy (busy_of_pend_some hp)
  refine ⟨advance (hostNext s), step_host s hm, ?_, ?_, (advance_sameCore _).toSameEngine.trans (hostNext_sameEngine s)⟩
  · rw [advance, hframe]
  · rw [advance, hframe]
    exact hp

/-- R240: along a schedule without reset the engine's turn comes, with the command still pending and the engine's elements as they were. -/
theorem engine_turn_reached {p : Pending} (sched : List Agent) (hreset : Agent.reset ∉ sched) {s : State}
    (hsched : s.sched = sched) (hp : s.pend = some p) :
    ∃ n u, n ≤ sched.length ∧ core.run n s = .next u ∧ u.mover = .engine ∧ u.pend = some p ∧ SameEngine u s := by
  induction sched generalizing s with
  | nil =>
    exact ⟨0, s, Nat.le_refl _, rfl, mover_of_schedule_over hsched (busy_of_pend_some hp), hp,
      (sameCore_refl s).toSameEngine⟩
  | cons a rest ih =>
    have hm : s.mover = a := mover_of_schedule hsched
    cases a with
    | reset => exact absurd List.mem_cons_self hreset
    | engine => exact ⟨0, s, Nat.zero_le _, rfl, hm, hp, (sameCore_refl s).toSameEngine⟩
    | host =>
      obtain ⟨v, hstep, hvsched, hvp, hvs⟩ := step_host_pending hm hp
      obtain ⟨n, u, hn, hrun, hu, hup, huv⟩ := ih (List.not_mem_of_not_mem_cons hreset) (hvsched.trans (congrArg List.tail hsched)) hvp
      exact ⟨n + 1, u, Nat.succ_le_succ hn, (run_succ (M := core) hstep n).trans hrun, hu, hup, huv.trans hvs⟩

/-- Every engine step "sets PEND to empty" (R62). -/
theorem EngineEffect.pend {p : Pending} {s u : State} (hu : EngineEffect p s u) : u.pend = none := by
  cases hu with
  | init | update | digest | zeroize | nop | clrerr => rfl

/-- Settles O53: the engine's turn is reached, and there the invariant's bound on CUR lets the command be performed. -/
theorem pendingCommandIsPerformed : Obligations.PendingCommandIsPerformed := by
  intro s p hinv hp hreset
  obtain ⟨n, u, hn, hrun, hu, hup, hus⟩ := engine_turn_reached s.sched hreset rfl hp
  have hcur : u.cur.toNat < 64 := by
    rw [hus.cur]
    exact hinv.cursor
  exact ⟨n, u, advance (performed p u), hn, hrun, hu, hup, hus.h, hus.buf, hus.cur, hus.len, step_engine u p hu hup hcur,
    (performed_effect p u).pend⟩

/-! ### Reset (R230, R231) -/

/-- Every register reads 0 after reset, the write-only and the reserved slots too (R34). -/
theorem readRegister_reset (off : Offset) : readRegister off State.reset = (0, State.reset) := by
  by_cases hdig : 0x20 ≤ off.toNat
  · have hword (i : Nat) : State.reset.dig.toList.getD i 0 = 0 := by
      rw [State.reset, Vector.toList_replicate, List.getD_eq_getElem?_getD,
        List.getElem?_getD_replicate_default_eq]
    rw [readRegister_digest hdig, readUnlessBusy_free rfl, hword]
  · unfold readRegister
    rw [if_neg hdig]
    split_ifs <;> rfl

/-- Settles O37: each element by its reset value, each read through `readRegister_reset`. -/
theorem resetClearsEveryElement : Obligations.ResetClearsEveryElement := by
  refine ⟨fun i => ⟨Vector.getElem_replicate i.isLt, Vector.getElem_replicate i.isLt⟩,
    fun j => Vector.getElem_replicate j.isLt, rfl, rfl, rfl, rfl, rfl, rfl, rfl, rfl,
    fun t => Vector.getElem_replicate t.isLt, rfl, rfl, rfl, rfl, rfl, rfl, rfl, rfl, rfl, rfl, rfl, rfl,
    fun off halign => ?_⟩
  rw [regRead_aligned halign, readRegister_reset]

/-- Settles O38: a reset move is `hwReset`, and the schedule goes on. -/
theorem resetAbandonsThePendingCommand : Obligations.ResetAbandonsThePendingCommand := step_reset

end Sys2Proof.Machine
end
